-- ==== Sys2Proof/Word.lean ====
section
/-! DEFINITION. The types of ARC4-CORE's data (00_scope.md R7): bytes, 16-bit words, 256-entry tables. -/

namespace Sys2Proof

/-- An 8-bit unsigned value: a table entry, a cursor, a key byte, a data byte (R7, R10). Its addition is the
8-bit adder whose carry out is dropped, which R10 says is addition modulo 256. -/
abbrev Byte := BitVec 8

/-- A 16-bit command or response word (R7, R70, R80). -/
abbrev Word := BitVec 16

/-- A storage array of 256 bytes, addressed by an 8-bit index (R7, R20, R50). DESIGN CHOICE, safe: the vector
of 10_state.md R20, not a list of cells (log 10). -/
abbrev Table := Vector Byte 256

/-- The table whose entry `x` is `f x`. It is irreducible so that a unifier does not write out 256 entries; the kernel
evaluates it, and `readEntry_tableOf` says what it reads. -/
@[irreducible] def tableOf (f : Byte → Byte) : Table := Vector.ofFn fun x => f (BitVec.ofNat 8 x.val)

end Sys2Proof
end

