-- ==== Sys2Proof/Syntax.lean ====
section
/-! DEFINITION. The commands, one constructor per row of spec/opcode_table.json (30_encoding.md R74). -/

namespace Sys2Proof

/-- A decoded command. The four commands that ignore their operand carry none: 30_encoding.md R86, "A model decodes
these four commands on `OPC` alone" (log 17). An operand is the byte `OPND`, used as is (R72, R73). -/
inductive Instr where
  /-- NOP (R100). -/
  | nop
  /-- KEY_CLEAR (R102). -/
  | keyClear
  /-- KEY_PUSH b (R104). -/
  | keyPush (b : Byte)
  /-- SCHEDULE (R106). -/
  | schedule
  /-- XFORM d (R120). -/
  | xform (d : Byte)
  /-- READ_S a (R140). -/
  | readS (a : Byte)
  /-- READ_REG sel (R144). Reserved selects are command words like the others (R85): READ_REG answers them. -/
  | readReg (sel : Byte)
  /-- END (R148). -/
  | endSession
deriving DecidableEq, Repr

end Sys2Proof
end

