-- ==== Sys2Proof/Decode.lean ====
section
/-! DEFINITION. Decoding and encoding of command words (30_encoding.md R70 to R75, R84 to R86, R89). -/

namespace Sys2Proof

/-- `cmd.OPC = cmd[15:8]` (R71). -/
def opcodeOf (w : Word) : Byte := w.extractLsb' 8 8

/-- `cmd.OPND = cmd[7:0]` (R71). -/
def operandOf (w : Word) : Byte := w.extractLsb' 0 8

/-- `{OPC, OPND}` (R71). -/
def commandWord (opc opnd : Byte) : Word := opc ++ opnd

/-- Why a word is no command. Not a stop: the block answers such a word (R84). -/
inductive Reject where
  /-- The opcode is one of 0x08..0xFF (R84, R85). -/
  | reservedOpcode (opc : Byte)
deriving DecidableEq, Repr

/-- The decoding procedure of R89: on `OPC` alone, total on all 65536 words (R85). -/
def decode (w : Word) : Except Reject Instr :=
  match (opcodeOf w).toNat with
  | 0 => .ok .nop
  | 1 => .ok .keyClear
  | 2 => .ok (.keyPush (operandOf w))
  | 3 => .ok .schedule
  | 4 => .ok (.xform (operandOf w))
  | 5 => .ok (.readS (operandOf w))
  | 6 => .ok (.readReg (operandOf w))
  | 7 => .ok .endSession
  | _ => .error (.reservedOpcode (opcodeOf w))

/-- The opcode of a command (R74). -/
def Instr.opcode : Instr → Byte
  | .nop => 0x00
  | .keyClear => 0x01
  | .keyPush _ => 0x02
  | .schedule => 0x03
  | .xform _ => 0x04
  | .readS _ => 0x05
  | .readReg _ => 0x06
  | .endSession => 0x07

/-- The operand byte of the canonical encoding: 0x00 where the operand is ignored (R75). -/
def Instr.operand : Instr → Byte
  | .nop => 0x00
  | .keyClear => 0x00
  | .keyPush b => b
  | .schedule => 0x00
  | .xform d => d
  | .readS a => a
  | .readReg sel => sel
  | .endSession => 0x00

/-- The canonical encoding of a command (R75). -/
def encode (i : Instr) : Word := commandWord i.opcode i.operand

/-- The 16-bit word whose low `nbits` bits are those of `w` and whose other bits are 0. -/
def tableWord (nbits w : Nat) : Word := BitVec.ofNat 16 (w % 2 ^ nbits)

/-- The command in a word numbered as spec/opcode_table.json numbers it. Every row has 16 bits; a command is one
16-bit word (R70), so a longer word is none. DESIGN CHOICE, safe (log 11). -/
def decodeTableWord (nbits w : Nat) : Option Instr :=
  if 16 < nbits then none else (decode (tableWord nbits w)).toOption

end Sys2Proof
end

