-- ==== Sys2Proof/Config.lean ====
section
/-! DEFINITION. The free values: the bytes the spec calls unspecified (10_state.md R31, R33; 92_eei_decisions.md
D25, "draws under no law"; 93_implementation_defined.md section 2, "any value"). Each is opaque, so no proof can
see a value of it. No other implementation parameter is left to the model: `LAT(op)` of R8 is left out (log 9). -/

namespace Sys2Proof

/-- Entry `x` of `S` after power-up (R31, R36). DESIGN CHOICE, safe: a free value (log 4). -/
opaque Config.powerUpS : Byte → Byte

/-- Entry `x` of `K` after power-up (R33, R36). DESIGN CHOICE, safe: a free value (log 4). -/
opaque Config.powerUpK : Byte → Byte

/-- Entry `x` of `S` after the `draw`-th event that leaves `S` unspecified (END: R148; a reset: R210), where `old`
is what `S` held before: keeping the old bytes and erasing them are both among its possibilities.
DESIGN CHOICE, safe within one run (log 5, log 6). -/
opaque Config.unspecifiedS (draw : Nat) (old : Table) : Byte → Byte

/-- Entry `x` of `K` after the `draw`-th event that leaves `K` unspecified (KEY_CLEAR: R102; a reset: R210), where
`old` is what `K` held before. DESIGN CHOICE, safe within one run (log 5, log 6). -/
opaque Config.unspecifiedK (draw : Nat) (old : Table) : Byte → Byte

end Sys2Proof
end

