-- ==== Sys2Proof/Machine/State.lean ====
section
/-! DEFINITION. The state of one ARC4-CORE instance (10_state.md R20, R36) and the ways a step can stop. -/

namespace Sys2Proof.Machine

/-- The error causes (60_exceptions.md R182 to R185). An error is a response, no stop (R180). -/
inductive CmdError where
  /-- InvalidKey: SCHEDULE with `key_len = 0` (R182). -/
  | invalidKey
  /-- NotScheduled: XFORM or READ_S with `VALID = 0` (R183). -/
  | notScheduled
  /-- IllegalCmd: a reserved opcode (R184). -/
  | illegalCmd
  /-- IllegalOperand: READ_REG with a reserved select (R185). -/
  | illegalOperand
deriving DecidableEq, Repr

/-- The outcome a response reports (30_encoding.md R81). -/
inductive RspCode where
  /-- OK: the command completed and wrote its state. -/
  | ok
  /-- The command failed and wrote nothing. -/
  | error (e : CmdError)
deriving DecidableEq, Repr

/-- The command channel: one command at a time, one response per command (20_memory.md R52, 10_state.md R36,
70_reset_and_hazards.md R223). -/
inductive Channel where
  /-- No command in flight, ready to accept. -/
  | idle
  /-- The command word `w` is accepted and not yet answered. -/
  | inFlight (w : Word)
  /-- The response `r` waits for the host to take it. -/
  | responding (r : Word)
deriving DecidableEq, Repr

/-- What the host drives on the block's inputs during one step (R223): the interactions of its table. -/
structure HostInput where
  /-- The reset input is applied (R210). -/
  reset : Bool
  /-- The command word presented, if any. -/
  command : Option Word
  /-- The host takes the response that is pending, if one is. -/
  take : Bool
deriving DecidableEq, Repr

/-- The state of one instance (log 15). The first seven fields are the spec's (R20, R36). The last three are the MODEL'S OWN:
what the host will do, what it has received, how many free values were drawn. -/
structure State where
  /-- `i`, the first cursor (R23). -/
  i : Byte
  /-- `j`, the second cursor (R25). -/
  j : Byte
  /-- `VALID`: a session is scheduled (R27). -/
  valid : Bool
  /-- `key_len`, 9 bits, 0..256 (R29). -/
  keyLen : Fin 257
  /-- The command channel (R36, R52). -/
  channel : Channel
  /-- `S`, the Permutation State (R21, R22). -/
  S : Table
  /-- `K`, the key store (R28). -/
  K : Table
  /-- The host's inputs, one per coming step; when the list has ended the host drives nothing.
  DESIGN CHOICE, safe (log 1). -/
  inputs : List HostInput
  /-- The responses the host has taken, oldest first (R228). DESIGN CHOICE, safe (log 3). -/
  delivered : List Word
  /-- How many times storage became unspecified so far: the argument of the free values. DESIGN CHOICE, safe (log 5). -/
  draws : Nat
deriving DecidableEq, Repr

/-- Why the machine stops with a fault. There is NO reason: the block has no trap, no crash and no access outside its
storage (60_exceptions.md R180, R181; 20_memory.md R53), so this type has no constructor and nobody raises one.
DEDUCED, safe (log 7). -/
inductive Fault where
deriving DecidableEq, Repr

/-- Why a command has no meaning. -/
inductive Refusal where
  /-- A command of the opcode table without a meaning yet. Only an arm of `exec` may raise it, and none does. Safe: the
  model would stop where the block goes on (log 7). -/
  | notModelled (mnemonic : String)
deriving DecidableEq, Repr

/-- The state after power-up, which is a reset (10_state.md R36; 70_reset_and_hazards.md R210, R211). `S` and `K`
are unspecified: free values (log 4). No host input, nothing delivered, no draw: DESIGN CHOICE (log 1, 3, 5). -/
def State.reset : State where
  i := 0x00
  j := 0x00
  valid := false
  keyLen := 0
  channel := .idle
  S := tableOf Config.powerUpS
  K := tableOf Config.powerUpK
  inputs := []
  delivered := []
  draws := 0

end Sys2Proof.Machine
end

