-- ==== Sys2Proof/Machine/Ops.lean ====
section
/-! DEFINITION. The named operations on the state: table accesses and the swap (00_scope.md R11), the field updates,
the response and the error (30_encoding.md R80, R81; 60_exceptions.md R180), the command channel and the reset
(20_memory.md R52; 70_reset_and_hazards.md R210, R212, R223). -/

namespace Sys2Proof.Machine

/-- `S[x]` or `K[x]` (R11): every 8-bit index names an entry (R50, R53). -/
def readEntry (t : Table) (x : Byte) : Byte := t[x.toNat]'x.isLt

/-- `S[x] <- v` or `K[x] <- v` (R11). -/
def writeEntry (t : Table) (x v : Byte) : Table := t.set x.toNat v x.isLt

/-- `swap(S, a, b)` (R11), as one update. -/
def swapEntries (t : Table) (a b : Byte) : Table :=
  writeEntry (writeEntry t a (readEntry t b)) b (readEntry t a)

/-- `x[i] <- i`, `x[j] <- j` (R23, R25). -/
def State.setCursors (i j : Byte) (s : State) : State := { s with i := i, j := j }

/-- `x[VALID] <- v` (R27). -/
def State.setValid (v : Bool) (s : State) : State := { s with valid := v }

/-- `x[key_len] <- n` (R29). -/
def State.setKeyLen (n : Fin 257) (s : State) : State := { s with keyLen := n }

/-- The Permutation State becomes `t` (R21). -/
def State.setS (t : Table) (s : State) : State := { s with S := t }

/-- The key store becomes `t` (R28). -/
def State.setK (t : Table) (s : State) : State := { s with K := t }

/-- The command channel becomes `c` (R36). -/
def State.setChannel (c : Channel) (s : State) : State := { s with channel := c }

/-- `S` becomes unspecified (R31, R148): every entry a free value. DESIGN CHOICE, safe (log 5). -/
def State.forgetS (s : State) : State :=
  { s with S := tableOf (Config.unspecifiedS s.draws s.S), draws := s.draws + 1 }

/-- `K` becomes unspecified (R33, R102): every entry a free value. DESIGN CHOICE, safe (log 5). -/
def State.forgetK (s : State) : State :=
  { s with K := tableOf (Config.unspecifiedK s.draws s.K), draws := s.draws + 1 }

/-- The code of an error (R81, R182 to R185). -/
def CmdError.codeBits : CmdError → BitVec 3
  | .invalidKey => 1
  | .notScheduled => 2
  | .illegalCmd => 3
  | .illegalOperand => 4

/-- `CODE` (R81): 0 is OK, 5 to 7 are never produced. -/
def RspCode.bits : RspCode → BitVec 3
  | .ok => 0
  | .error e => e.codeBits

/-- `{0b00000, code[2:0], data[7:0]}` (R80). -/
def responseWord (code : RspCode) (data : Byte) : Word := 0#5 ++ code.bits ++ data

/-- `CODE = rsp[10:8]` (R80). -/
def responseCode (r : Word) : BitVec 3 := r.extractLsb' 8 3

/-- `DATA = rsp[7:0]` (R80). -/
def responseData (r : Word) : Byte := r.extractLsb' 0 8

/-- The reserved bits `rsp[15:11]` (R80). -/
def responseReserved (r : Word) : BitVec 5 := r.extractLsb' 11 5

/-- `respond(code, data)`: the single response of the command whose writes `s` holds (R11, R80). -/
def respond (code : RspCode) (data : Byte) (s : State) : Host.Outcome State Fault Refusal :=
  .next (s.setChannel (.responding (responseWord code data)))

/-- `raise E()` in the state `s` the command started from: no state write, response `respond(code(E), 0x00)`, and the
block goes on (R11, R180, R191). This is the block's only exception; it saves nothing and enters no handler (R181),
so there is no return from it (R192). -/
def raise (e : CmdError) (s : State) : Host.Outcome State Fault Refusal :=
  respond (.error e) 0x00 s

/-- The answer to a word that is no command: ILLEGAL_CMD, no state change (R84, R184). -/
def answerReject (r : Reject) (s : State) : Host.Outcome State Fault Refusal :=
  match r with
  | .reservedOpcode _ => raise .illegalCmd s

/-- The host drives nothing (R223, "idle"). -/
def HostInput.quiet : HostInput := { reset := false, command := none, take := false }

/-- The host presents the command word `w` (R223, "command"). -/
def HostInput.present (w : Word) : HostInput := { reset := false, command := some w, take := false }

/-- The host takes the response (R223). -/
def HostInput.taking : HostInput := { reset := false, command := none, take := true }

/-- The host applies reset (R223, "reset"). -/
def HostInput.resetting : HostInput := { reset := true, command := none, take := false }

/-- What the host drives in the coming step. -/
def State.input (s : State) : HostInput := s.inputs.headD .quiet

/-- The state with that input consumed. -/
def State.popInput (s : State) : State := { s with inputs := s.inputs.tail }

/-- The reset event (R210, R36): every item of state takes its reset value, a command in flight or a pending response
is abandoned (R212), the channel is idle and ready. What the host has taken and will do stays (log 6). -/
def resetBlock (s : State) : State :=
  ((((s.forgetS.forgetK).setCursors 0x00 0x00).setValid false).setKeyLen 0).setChannel .idle

/-- The command word `w` is accepted (R52). -/
def accept (w : Word) (s : State) : State := s.setChannel (.inFlight w)

/-- The host takes the pending response `r`; the channel is ready for the next command (R52). -/
def deliver (r : Word) (s : State) : State :=
  { s with channel := .idle, delivered := s.delivered ++ [r] }

/-- An idle block: it accepts the command presented, else waits (R52, R223). Only here is a word accepted; one presented
at another time is not remembered. DEDUCED, safe (log 8). -/
def idleStep (inp : HostInput) (s : State) : State :=
  match inp.command with
  | some w => accept w s
  | none => s

/-- A block with a pending response: it holds the response until the host takes it and accepts no command meanwhile
(R52, R220, R223). -/
def respondingStep (inp : HostInput) (r : Word) (s : State) : State :=
  if inp.take then deliver r s else s

/-- `s` with the command word `w` accepted and the host quiet in the coming step, so that the coming step runs `w`
(log 12). -/
def placeCommand (w : Word) (s : State) : State :=
  { s with channel := .inFlight w, inputs := .quiet :: s.inputs }

end Sys2Proof.Machine
end

