-- ==== Sys2Proof/Machine/KeyScheduler.lean ====
section
/-! DEFINITION. NOP, KEY_CLEAR, KEY_PUSH, SCHEDULE (40_key_schedule.md). -/

namespace Sys2Proof.Machine

/-- NOP (R100). -/
def execNop (s : State) : Host.Outcome State Fault Refusal := respond .ok 0x00 s

/-- KEY_CLEAR (R102). The bytes of `K` become unspecified: they "need not be erased" (R33, log 5). A session in
progress continues. -/
def execKeyClear (s : State) : Host.Outcome State Fault Refusal :=
  respond .ok 0x00 (s.forgetK.setKeyLen 0)

/-- KEY_PUSH (R104): a push to a full store is dropped and is no error (R109). -/
def execKeyPush (b : Byte) (s : State) : Host.Outcome State Fault Refusal :=
  if h : s.keyLen.val < 256 then
    respond .ok 0x00 ((s.setK (writeEntry s.K (BitVec.ofNat 8 s.keyLen.val) b)).setKeyLen ⟨s.keyLen.val + 1, by omega⟩)
  else
    respond .ok 0x00 s

/-- Step 1 of R106: entry `n` holds `n`. -/
def identityTable : Table := tableOf id

/-- `K[n mod L]` (R106, R107). -/
def keyByte (K : Table) (L n : Nat) : Byte := readEntry K (BitVec.ofNat 8 (n % L))

/-- One iteration of step 3 of R106, on `(S, jk)`. -/
def ksaIteration (K : Table) (L : Nat) (acc : Table × Byte) (n : Nat) : Table × Byte :=
  let jk := acc.2 + readEntry acc.1 (BitVec.ofNat 8 n) + keyByte K L n
  (swapEntries acc.1 (BitVec.ofNat 8 n) jk, jk)

/-- The table and running index after the first `k` iterations of step 3 of R106. -/
def ksaAfter (K : Table) (L k : Nat) : Table × Byte :=
  (List.range k).foldl (ksaIteration K L) (identityTable, 0x00)

/-- The Permutation State the key schedule builds from `K[0..L-1]` (R106): 256 iterations. -/
def scheduledTable (K : Table) (L : Nat) : Table := (ksaAfter K L 256).1

/-- SCHEDULE (R106): the check comes before any write (R111, R182); a live session is replaced (R110). -/
def execSchedule (s : State) : Host.Outcome State Fault Refusal :=
  if s.keyLen.val = 0 then
    raise .invalidKey s
  else
    respond .ok 0x00 (((s.setS (scheduledTable s.K s.keyLen.val)).setCursors 0x00 0x00).setValid true)

end Sys2Proof.Machine
end

