-- ==== Sys2Proof/Machine/Keystream.lean ====
section
/-! DEFINITION. XFORM (41_keystream.md R120). -/

namespace Sys2Proof.Machine

/-- `(x[i] + 1) mod 256` (R120). -/
def advancedI (s : State) : Byte := s.i + 1

/-- `(x[j] + S[x[i]]) mod 256`, with the new `i` (R120). -/
def advancedJ (s : State) : Byte := s.j + readEntry s.S (advancedI s)

/-- `S` after `swap(S, x[i], x[j])`, with the new cursors (R120). -/
def advancedS (s : State) : Table := swapEntries s.S (advancedI s) (advancedJ s)

/-- `k = S[t]`, `t = (S[x[i]] + S[x[j]]) mod 256`, all read after the swap (R120, R123). -/
def keystreamByte (s : State) : Byte :=
  readEntry (advancedS s) (readEntry (advancedS s) (advancedI s) + readEntry (advancedS s) (advancedJ s))

/-- XFORM (R120): refused without a session (R127, R183). -/
def execXform (d : Byte) (s : State) : Host.Outcome State Fault Refusal :=
  if s.valid then
    respond .ok (d ^^^ keystreamByte s) ((s.setS (advancedS s)).setCursors (advancedI s) (advancedJ s))
  else
    raise .notScheduled s

end Sys2Proof.Machine
end

