-- ==== Sys2Proof/Machine/Flags.lean ====
section
/-! DEFINITION. The status bits (10_state.md R35). The block has no other flag: no arithmetic sets one (R37). -/

namespace Sys2Proof.Machine

/-- KEY_FULL: `key_len = 256` (R35). -/
def keyFull (s : State) : Bool := decide (s.keyLen.val = 256)

/-- KEY_EMPTY: `key_len = 0` (R35). -/
def keyEmpty (s : State) : Bool := decide (s.keyLen.val = 0)

/-- STATUS: `{0b00000, KEY_EMPTY, KEY_FULL, VALID}` (R35, R144). -/
def statusByte (s : State) : Byte :=
  0#5 ++ BitVec.ofBool (keyEmpty s) ++ BitVec.ofBool (keyFull s) ++ BitVec.ofBool s.valid

/-- `key_len` as the 9-bit register it is (R29). -/
def keyLenBits (s : State) : BitVec 9 := BitVec.ofNat 9 s.keyLen.val

end Sys2Proof.Machine
end

