-- ==== Sys2Proof/Machine/Operands.lean ====
section
/-! DEFINITION. The one operand that selects something: the register select of READ_REG (10_state.md R34). The other
operands, a key byte, a data byte and an index of `S`, are the byte itself (30_encoding.md R72). -/

namespace Sys2Proof.Machine

/-- The five status registers (R34). -/
inductive StatusReg where
  | status
  | i
  | j
  | keyLenLo
  | keyLenHi
deriving DecidableEq, Repr

/-- The register a select names; 0x05..0xFF are reserved and name none (R34). -/
def selectReg (sel : Byte) : Option StatusReg :=
  match sel.toNat with
  | 0 => some .status
  | 1 => some .i
  | 2 => some .j
  | 3 => some .keyLenLo
  | 4 => some .keyLenHi
  | _ => none

/-- What a status register reads (R34, R144). -/
def readStatusReg (r : StatusReg) (s : State) : Byte :=
  match r with
  | .status => statusByte s
  | .i => s.i
  | .j => s.j
  | .keyLenLo => (keyLenBits s).extractLsb' 0 8
  | .keyLenHi => ((keyLenBits s).extractLsb' 8 1).setWidth 8

end Sys2Proof.Machine
end

