-- ==== Sys2Proof/Machine/Session.lean ====
section
/-! DEFINITION. READ_S, READ_REG, END (42_session_readback.md). -/

namespace Sys2Proof.Machine

/-- READ_S (R140): refused without a session, since `S` is then unspecified (R31, R183). -/
def execReadS (a : Byte) (s : State) : Host.Outcome State Fault Refusal :=
  if s.valid then respond .ok (readEntry s.S a) s else raise .notScheduled s

/-- READ_REG (R144): a reserved select is refused (R185). -/
def execReadReg (sel : Byte) (s : State) : Host.Outcome State Fault Refusal :=
  match selectReg sel with
  | some r => respond .ok (readStatusReg r s) s
  | none => raise .illegalOperand s

/-- END (R148): `S` becomes unspecified and unobservable (R31, log 5); `K` and `key_len` are kept. -/
def execEnd (s : State) : Host.Outcome State Fault Refusal :=
  respond .ok 0x00 ((s.forgetS.setValid false).setCursors 0x00 0x00)

end Sys2Proof.Machine
end

