-- ==== Sys2Proof/Machine/Dispatch.lean ====
section
/-! DEFINITION. One arm per command (00_scope.md R12). -/

namespace Sys2Proof.Machine

def exec (i : Instr) (s : State) : Host.Outcome State Fault Refusal :=
  match i with
  | .nop => Sys2Proof.Machine.execNop s
  | .keyClear => Sys2Proof.Machine.execKeyClear s
  | .keyPush b => Sys2Proof.Machine.execKeyPush b s
  | .schedule => Sys2Proof.Machine.execSchedule s
  | .xform d => Sys2Proof.Machine.execXform d s
  | .readS a => Sys2Proof.Machine.execReadS a s
  | .readReg sel => Sys2Proof.Machine.execReadReg sel s
  | .endSession => Sys2Proof.Machine.execEnd s

end Sys2Proof.Machine
end

