-- ==== Sys2Proof/Machine/Step.lean ====
section
/-! DEFINITION. One step: the host's input of the step, then the command channel (20_memory.md R52;
70_reset_and_hazards.md R210, R212, R223). A command changes the architectural state in exactly one step, the one that
answers it (R54). -/

namespace Sys2Proof.Machine

/-- The command word in flight is carried out: a command runs, a reserved word is answered (30_encoding.md R84, R89). -/
def complete (w : Word) (s : State) : Host.Outcome State Fault Refusal :=
  match decode w with
  | .ok i => exec i s
  | .error r => answerReject r s

/-- One step. Reset takes priority over every command (R212, log 16); no time passes (log 9). DESIGN CHOICE, safe: a command is accepted, carried out
and its response taken in three steps (log 2). -/
def step (s : State) : Host.Outcome State Fault Refusal :=
  if s.input.reset then .next (resetBlock s.popInput)
  else
    match s.channel with
    | .idle => .next (idleStep s.input s.popInput)
    | .inFlight w => complete w s.popInput
    | .responding r => .next (respondingStep s.input r s.popInput)

/-- `s` about to carry out the command word whose table bits are `w`: the command is in flight and the host is quiet
in the coming step (log 12). -/
def State.withFetchWord (s : State) (nbits w : Nat) : State := placeCommand (tableWord nbits w) s

end Sys2Proof.Machine
end

