-- ==== Sys2Proof/Machine/Asm.lean ====
section
/-! DEFINITION. The assembler of 30_encoding.md R87 and the pseudo-instructions of R88. It runs on the host and is no
part of the block's state. What R87 leaves open of the text's form is DESIGN CHOICE, log 13. -/

namespace Sys2Proof.Machine

/-- A line of assembly after its text is read: a command or a pseudo-instruction (R87, R88). -/
inductive AsmLine where
  /-- An empty line, or one that holds only a comment. -/
  | blank
  /-- A command. -/
  | command (i : Instr)
  /-- KEY with its key bytes. -/
  | key (bytes : List Byte)
  /-- KEYSTREAM. -/
  | keystream
  /-- XFORMS with its data bytes. -/
  | xforms (bytes : List Byte)
  /-- DUMP_S. -/
  | dumpS
deriving DecidableEq, Repr

/-- The commands a line stands for (R88). -/
def AsmLine.expand : AsmLine → List Instr
  | .blank => []
  | .command i => [i]
  | .key bytes => .keyClear :: bytes.map .keyPush
  | .keystream => [.xform 0x00]
  | .xforms bytes => bytes.map .xform
  | .dumpS => (List.range 256).map fun n => .readS (BitVec.ofNat 8 n)

/-- Why a line is refused by the assembler (R87). -/
inductive AsmError where
  /-- A quoted character or text does not end, or a quote stands inside a word. -/
  | badText
  /-- The mnemonic is none of R87 and R88. -/
  | unknownMnemonic
  /-- An operand is no byte 0..255 (R87, "A byte operand out of 0..255 is an assembler error"). -/
  | badByte
  /-- The mnemonic takes another number of operands. -/
  | operandCount
deriving DecidableEq, Repr

/-- A piece of a line. -/
inductive Token where
  /-- A run of characters without blanks, commas and quotes: a mnemonic, a number, a register name. -/
  | word (cs : List Char)
  /-- 'c' -/
  | char (c : Char)
  /-- "text" -/
  | text (cs : List Char)
  | comma
deriving DecidableEq, Repr

/-- Where the reader of a line stands. The characters of a word or text read so far are kept in reverse. -/
inductive LexMode where
  | between
  | inWord (rev : List Char)
  | inText (rev : List Char)
  | charOpen
  | charClose (c : Char)

/-- Split a line into tokens; `;` outside quotes starts a comment (R87). -/
def lex : List Char → LexMode → Except AsmError (List Token)
  | [], .between => .ok []
  | [], .inWord rev => .ok [.word rev.reverse]
  | [], .inText _ => .error .badText
  | [], .charOpen => .error .badText
  | [], .charClose _ => .error .badText
  | c :: cs, .between =>
    if c = ';' then .ok []
    else if c = ' ' ∨ c = '\t' then lex cs .between
    else if c = ',' then (lex cs .between).map (.comma :: ·)
    else if c = '"' then lex cs (.inText [])
    else if c = '\'' then lex cs .charOpen
    else lex cs (.inWord [c])
  | c :: cs, .inWord rev =>
    if c = ';' then .ok [.word rev.reverse]
    else if c = ' ' ∨ c = '\t' then (lex cs .between).map (.word rev.reverse :: ·)
    else if c = ',' then (lex cs .between).map fun ts => .word rev.reverse :: .comma :: ts
    else if c = '"' ∨ c = '\'' then .error .badText
    else lex cs (.inWord (c :: rev))
  | c :: cs, .inText rev =>
    if c = '"' then (lex cs .between).map (.text rev.reverse :: ·)
    else lex cs (.inText (c :: rev))
  | c :: cs, .charOpen => lex cs (.charClose c)
  | c :: cs, .charClose d =>
    if c = '\'' then (lex cs .between).map (.char d :: ·) else .error .badText

/-- The value of a digit in the given base, 10 or 16. -/
def digitValue (base : Nat) (c : Char) : Option Nat :=
  let v :=
    if '0' ≤ c ∧ c ≤ '9' then c.toNat - '0'.toNat
    else if 'a' ≤ c ∧ c ≤ 'f' then c.toNat - 'a'.toNat + 10
    else if 'A' ≤ c ∧ c ≤ 'F' then c.toNat - 'A'.toNat + 10
    else base
  if v < base then some v else none

/-- The number the digits write after `acc`. -/
def numberFrom (base : Nat) : List Char → Nat → Option Nat
  | [], acc => some acc
  | c :: cs, acc =>
    match digitValue base c with
    | some v => numberFrom base cs (acc * base + v)
    | none => none

/-- A number: decimal digits, or hexadecimal digits after `0x` (R87). -/
def numberOf (cs : List Char) : Option Nat :=
  match cs with
  | [] => none
  | '0' :: 'x' :: [] => none
  | '0' :: 'x' :: ds => numberFrom 16 ds 0
  | ds => numberFrom 10 ds 0

/-- A value in 0..255 as a byte (R87). -/
def byteOfNat (n : Nat) : Except AsmError Byte :=
  if n < 256 then .ok (BitVec.ofNat 8 n) else .error .badByte

/-- An ASCII character as a byte (R87). -/
def byteOfChar (c : Char) : Except AsmError Byte :=
  if c.toNat < 128 then .ok (BitVec.ofNat 8 c.toNat) else .error .badByte

/-- A byte operand: 0x00..0xFF, decimal, or an ASCII character (R87). -/
def byteOperand : Token → Except AsmError Byte
  | .word cs =>
    match numberOf cs with
    | some n => byteOfNat n
    | none => .error .badByte
  | .char c => byteOfChar c
  | .text _ => .error .badByte
  | .comma => .error .badByte

/-- A register operand: a name of 10_state.md R34, or a numeric select (R87). A quoted character is taken as its ASCII
select too, which R87 leaves open. DESIGN CHOICE, safe for the block (log 13). -/
def registerOperand (t : Token) : Except AsmError Byte :=
  if t = .word "STATUS".toList then .ok 0x00
  else if t = .word "I".toList then .ok 0x01
  else if t = .word "J".toList then .ok 0x02
  else if t = .word "KEYLEN_LO".toList then .ok 0x03
  else if t = .word "KEYLEN_HI".toList then .ok 0x04
  else byteOperand t

/-- The ASCII bytes of a text, in order (R88). -/
def bytesOfText : List Char → Except AsmError (List Byte)
  | [] => .ok []
  | c :: cs =>
    match byteOfChar c, bytesOfText cs with
    | .ok b, .ok bs => .ok (b :: bs)
    | _, _ => .error .badByte

/-- Bytes separated by commas, at least one (R88). -/
def byteList : List Token → Except AsmError (List Byte)
  | [] => .error .operandCount
  | [t] => (byteOperand t).map fun b => [b]
  | t :: .comma :: ts =>
    match byteOperand t, byteList ts with
    | .ok b, .ok bs => .ok (b :: bs)
    | .error e, _ => .error e
    | _, .error e => .error e
  | _ :: _ :: _ => .error .operandCount

/-- The operands of KEY and XFORMS: nothing, a text, or bytes separated by commas (R88). -/
def listOperand : List Token → Except AsmError (List Byte)
  | [] => .ok []
  | [.text cs] => bytesOfText cs
  | ts => byteList ts

/-- A line whose mnemonic takes no operand. -/
def noOperand (line : AsmLine) : List Token → Except AsmError AsmLine
  | [] => .ok line
  | _ :: _ => .error .operandCount

/-- A line whose mnemonic takes one operand, read by `read`. -/
def oneOperand (read : Token → Except AsmError Byte) (line : Byte → Instr) : List Token → Except AsmError AsmLine
  | [t] => (read t).map fun b => .command (line b)
  | _ => .error .operandCount

/-- The line with the mnemonic `m` and the operands `ts`; mnemonics are upper case (R87, R88). -/
def lineOf (m : List Char) (ts : List Token) : Except AsmError AsmLine :=
  if m = "NOP".toList then noOperand (.command .nop) ts
  else if m = "KEY_CLEAR".toList then noOperand (.command .keyClear) ts
  else if m = "KEY_PUSH".toList then oneOperand byteOperand .keyPush ts
  else if m = "SCHEDULE".toList then noOperand (.command .schedule) ts
  else if m = "XFORM".toList then oneOperand byteOperand .xform ts
  else if m = "READ_S".toList then oneOperand byteOperand .readS ts
  else if m = "READ_REG".toList then oneOperand registerOperand .readReg ts
  else if m = "END".toList then noOperand (.command .endSession) ts
  else if m = "KEY".toList then (listOperand ts).map .key
  else if m = "KEYSTREAM".toList then noOperand .keystream ts
  else if m = "XFORMS".toList then (listOperand ts).map .xforms
  else if m = "DUMP_S".toList then noOperand .dumpS ts
  else .error .unknownMnemonic

/-- Read one line: one command per line, the mnemonic first (R87). -/
def parseLine (cs : List Char) : Except AsmError AsmLine :=
  match lex cs .between with
  | .error e => .error e
  | .ok [] => .ok .blank
  | .ok (.word m :: ts) => lineOf m ts
  | .ok _ => .error .unknownMnemonic

/-- The command words of a list of lines, canonically encoded (R75, R87). -/
def assemble : List String → Except AsmError (List Word)
  | [] => .ok []
  | l :: ls =>
    match parseLine l.toList, assemble ls with
    | .ok line, .ok ws => .ok (line.expand.map encode ++ ws)
    | .error e, _ => .error e
    | _, .error e => .error e

end Sys2Proof.Machine
end

