-- ==== Sys2Proof/Machine/HostProc.lean ====
section
/-! DEFINITION. Commands as whole transactions, and the host procedures of 43_host_procedures.md. The procedures run
on the host; the block's behaviour is fixed by `step` alone. -/

namespace Sys2Proof.Machine

/-- The step function of 00_scope.md R12 on one command word: the word is carried out and its response taken. `none`
only where the block would not answer. -/
def transact (w : Word) (s : State) : Option (State × Word) :=
  match complete w s with
  | .next t =>
    match t.channel with
    | .responding r => some (deliver r t, r)
    | .inFlight _ => none
    | .idle => none
  | .fault _ => none
  | .refused _ => none

/-- The state and the responses after a sequence of command words (20_memory.md R58, 70_reset_and_hazards.md R228). -/
def runWords : List Word → State → Option (State × List Word)
  | [], s => some (s, [])
  | w :: ws, s =>
    match transact w s with
    | none => none
    | some (t, r) =>
      match runWords ws t with
      | none => none
      | some (u, rs) => some (u, r :: rs)

/-- Whether a response reports OK (30_encoding.md R81). -/
def responseOk (r : Word) : Bool := responseCode r == 0

/-- The command words of the document's `schedule(key, key_len)` (R160). -/
def scheduleWords (key : List Byte) : List Word :=
  ((AsmLine.key key).expand ++ [Instr.schedule]).map encode

/-- The command words of the document's `transform(state, data)` (R162). -/
def transformWords (data : List Byte) : List Word := (AsmLine.xforms data).expand.map encode

/-- The errors a host reports (R160, R163, R167). -/
inductive HostError where
  /-- InvalidKey (R160). -/
  | invalidKey
  /-- InvalidSkipCount (R167), a check of the host's own. -/
  | invalidSkipCount
  /-- Another error of the block: NOT_SCHEDULED when the host forgot SCHEDULE (R163). -/
  | blockError (code : BitVec 3)
deriving DecidableEq, Repr

/-- What the host reports for a response that is not OK. -/
def hostErrorOf (r : Word) : HostError :=
  if responseCode r = CmdError.codeBits .invalidKey then .invalidKey else .blockError (responseCode r)

/-- The first response that is not OK, as the host reports it. -/
def firstError : List Word → Option HostError
  | [] => none
  | r :: rs => if responseOk r then firstError rs else some (hostErrorOf r)

/-- `schedule` (R160). -/
def hostSchedule (key : List Byte) (s : State) : Option (State × Except HostError Unit) :=
  match runWords (scheduleWords key) s with
  | none => none
  | some (t, rs) =>
    match firstError rs with
    | some e => some (t, .error e)
    | none => some (t, .ok ())

/-- `transform` (R162): the buffer the host ends with, or an error and nothing written back (R163). -/
def hostTransform (data : List Byte) (s : State) : Option (State × Except HostError (List Byte)) :=
  match runWords (transformWords data) s with
  | none => none
  | some (t, rs) =>
    match firstError rs with
    | some e => some (t, .error e)
    | none => some (t, .ok (rs.map responseData))

/-- Encryption and decryption, one procedure (R164), with the skip region of R166 to R168. An absent skip count is 0.
DESIGN CHOICE, safe: the skip count is checked before any command is sent (log 14). -/
def hostEncrypt (key data : List Byte) (skip : Nat) (s : State) : Option (State × Except HostError (List Byte)) :=
  if data.length < skip then some (s, .error .invalidSkipCount)
  else
    match hostSchedule key s with
    | none => none
    | some (t, .error e) => some (t, .error e)
    | some (t, .ok ()) =>
      match hostTransform (data.drop skip) t with
      | none => none
      | some (u, .error e) => some (u, .error e)
      | some (u, .ok out) => some (u, .ok (data.take skip ++ out))

end Sys2Proof.Machine
end

