-- ==== Sys2Proof/Safety.lean ====
section
/-! DEFINITION. The terms claims use: the invariant of the block, states no host can tell apart, and the document's
algorithm written on natural numbers, apart from the block's. -/

namespace Sys2Proof

open Sys2Proof.Machine

/-- `t` is a bijection on {0..255}: "every value 0..255 occurs in exactly one entry" (10_state.md R22). -/
def IsPermutation (t : Table) : Prop :=
  ∀ v : Byte, ∃ x : Byte, readEntry t x = v ∧ ∀ y : Byte, readEntry t y = v → y = x

/-- A response the block may give (30_encoding.md R80 to R82): reserved bits 0, a code of R81, `DATA` 0x00 on errors. -/
def LegalResponse (r : Word) : Prop :=
  responseReserved r = 0 ∧ (responseCode r).toNat ≤ 4 ∧ (responseCode r ≠ 0 → responseData r = 0)

/-- What holds of the block between steps. -/
structure Inv (s : State) : Prop where
  /-- R22: `S` is a bijection while a session is scheduled. -/
  permutation : s.valid = true → IsPermutation s.S
  /-- 42_session_readback.md R144, corner cases: without a session the cursors are 0x00. -/
  cursors : s.valid = false → s.i = 0 ∧ s.j = 0
  /-- R80 to R82: a pending response is legal. -/
  pending : ∀ r, s.channel = .responding r → LegalResponse r
  /-- R80 to R82: every response taken was legal. -/
  taken : ∀ r ∈ s.delivered, LegalResponse r

/-- Two states that agree on everything but what the spec calls unspecified and unobservable: `S` while `VALID = 0`
(R31), the bytes of `K` at and above `key_len` (R33), and the counter of the free values. -/
structure Indistinguishable (s t : State) : Prop where
  i : s.i = t.i
  j : s.j = t.j
  valid : s.valid = t.valid
  keyLen : s.keyLen = t.keyLen
  channel : s.channel = t.channel
  inputs : s.inputs = t.inputs
  delivered : s.delivered = t.delivered
  key : ∀ x : Byte, x.toNat < s.keyLen.val → readEntry s.K x = readEntry t.K x
  permutation : s.valid = true → s.S = t.S

/-- The stored key: `K[0..key_len-1]` (R28). -/
def storedKey (s : State) : List Byte :=
  (List.range s.keyLen.val).map fun n => readEntry s.K (BitVec.ofNat 8 n)

/-- "swap `state[i]` and `state[j]`" of the document, on a table of natural numbers. -/
def docSwap (state : Nat → Nat) (a b : Nat) : Nat → Nat :=
  fun x => if x = a then state b else if x = b then state a else state x

/-- The document's section 4.1 (quoted in 40_key_schedule.md R106), after `n` iterations of its step 3: the table and
the running index. Sums are exact and then reduced (00_scope.md R10). -/
def docKeySchedule (key : List Byte) : Nat → (Nat → Nat) × Nat
  | 0 => (fun k => k, 0)
  | n + 1 =>
    let before := docKeySchedule key n
    let j := (before.2 + before.1 n + (key.getD (n % key.length) 0).toNat) % 256
    (docSwap before.1 n j, j)

/-- The document's `schedule(key)`: the table after its 256 iterations. -/
def docSchedule (key : List Byte) : Nat → Nat := (docKeySchedule key 256).1

/-- The document's cipher between two byte positions of section 4.2. -/
structure DocCipher where
  state : Nat → Nat
  i : Nat
  j : Nat

/-- One byte position of the document's section 4.2 (quoted in 41_keystream.md R120): the cipher after it and the
keystream byte. -/
def docNext (c : DocCipher) : DocCipher × Nat :=
  let i := (c.i + 1) % 256
  let j := (c.j + c.state i) % 256
  let state := docSwap c.state i j
  (⟨state, i, j⟩, state ((state i + state j) % 256))

/-- The document's `transform(state, data)`, from the cipher `c`: the cipher after it and the buffer after it. -/
def docTransform : List Byte → DocCipher → DocCipher × List Nat
  | [], c => (c, [])
  | d :: ds, c =>
    let step := docNext c
    let rest := docTransform ds step.1
    (rest.1, (d.toNat ^^^ step.2) :: rest.2)

/-- The block's `S`, `i` and `j` are the document's cipher `c`. -/
def MatchesDocument (s : State) (c : DocCipher) : Prop :=
  (∀ x : Byte, (readEntry s.S x).toNat = c.state x.toNat) ∧ s.i.toNat = c.i ∧ s.j.toNat = c.j

end Sys2Proof
end

