-- ==== Sys2Proof/WellFormed.lean ====
section
/-! DEFINITION. What is checked of commands and command words beyond their types. -/

namespace Sys2Proof

/-- Whether a command is one the block defines. An operand is a byte by its type and every byte is a legal operand
of every command that has one (30_encoding.md R72, R85; 60_exceptions.md R185), so no command is ill-formed: the
checks that can fail are those on words below and on assembly (Machine/Asm.lean). -/
def Instr.wellFormed : Instr → Bool
  | .nop => true
  | .keyClear => true
  | .keyPush _ => true
  | .schedule => true
  | .xform _ => true
  | .readS _ => true
  | .readReg _ => true
  | .endSession => true

/-- Whether the opcode of a word is one of the eight of R74, not reserved (R84). -/
def definedOpcode (w : Word) : Bool := decide ((opcodeOf w).toNat < 8)

/-- Whether the operand of a word is 0x00 where its command ignores it (R86 "should be 0x00"). -/
def ignoredOperandZero (w : Word) : Bool :=
  match (opcodeOf w).toNat with
  | 0 => operandOf w == 0
  | 1 => operandOf w == 0
  | 3 => operandOf w == 0
  | 7 => operandOf w == 0
  | _ => true

/-- Whether a word is one that an assembler emits (R75). The block accepts every word, canonical or not. -/
def canonicalWord (w : Word) : Bool := definedOpcode w && ignoredOperandZero w

end Sys2Proof
end

