-- ==== Sys2Proof/Certificates/Slice0/Obligations.lean ====
section
/-! DEFINITION. The statements for the provers. Where a next state is written as an update of `s`, everything the update
does not name is unchanged: the spec's state by the rule cited, and the MODEL'S OWN fields `inputs`, `delivered`, `draws`
(log 1, 3, 5), which is the model's clause and no rule of the spec. A response is written as its 16-bit word
(30_encoding.md section 3), or as `0x00#8 ++ data` for OK with `data`. -/

open Sys2Proof Sys2Proof.Machine

/-! Encoding -/

/-- Words written out bit by bit from the patterns of 30_encoding.md R75. -/
def Obligations.DecodeOfWrittenWords : Prop :=
  decode 0b0000000000000000 = .ok .nop ∧
  decode 0b0000000100000000 = .ok .keyClear ∧
  decode 0b0000001001001011 = .ok (.keyPush 0x4B) ∧
  decode 0b0000001110100101 = .ok .schedule ∧
  decode 0b0000010001010000 = .ok (.xform 0x50) ∧
  decode 0b0000010111111110 = .ok (.readS 0xFE) ∧
  decode 0b0000011000000100 = .ok (.readReg 0x04) ∧
  decode 0b0000011111111111 = .ok .endSession ∧
  decode 0b0000100000000000 = .error (.reservedOpcode 0x08) ∧
  decode 0b1111111100000001 = .error (.reservedOpcode 0xFF)

/-- The decoding procedure, for every word (30_encoding.md R89). -/
def Obligations.DecodeSelectsByOpcode : Prop :=
  ∀ opnd : Byte,
    decode (0x00#8 ++ opnd) = .ok .nop ∧
    decode (0x01#8 ++ opnd) = .ok .keyClear ∧
    decode (0x02#8 ++ opnd) = .ok (.keyPush opnd) ∧
    decode (0x03#8 ++ opnd) = .ok .schedule ∧
    decode (0x04#8 ++ opnd) = .ok (.xform opnd) ∧
    decode (0x05#8 ++ opnd) = .ok (.readS opnd) ∧
    decode (0x06#8 ++ opnd) = .ok (.readReg opnd) ∧
    decode (0x07#8 ++ opnd) = .ok .endSession ∧
    ∀ opc : Byte, 8 ≤ opc.toNat → decode (opc ++ opnd) = .error (.reservedOpcode opc)

/-- Decode and encode agree, and the encoder emits only canonical words (30_encoding.md R74, R75). -/
def Obligations.DecodeEncodeRoundTrip : Prop :=
  ∀ i : Instr, i.wellFormed = true → decode (encode i) = .ok i ∧ canonicalWord (encode i) = true

/-- A word that decodes is the encoding of its command exactly when it is canonical (30_encoding.md R75, R86). -/
def Obligations.CanonicalWordsAreEncodings : Prop :=
  ∀ (w : Word) (i : Instr), decode w = .ok i → (canonicalWord w = true ↔ encode i = w)

/-- Ignored operands (30_encoding.md R86): any value gives exactly the result of 0x00. -/
def Obligations.IgnoredOperandsHaveNoEffect : Prop :=
  ∀ (opnd : Byte) (s : State),
    complete (0x00#8 ++ opnd) s = complete 0x0000 s ∧
    complete (0x01#8 ++ opnd) s = complete 0x0100 s ∧
    complete (0x03#8 ++ opnd) s = complete 0x0300 s ∧
    complete (0x07#8 ++ opnd) s = complete 0x0700 s ∧
    decode (0x00#8 ++ opnd) = decode 0x0000 ∧ decode (0x01#8 ++ opnd) = decode 0x0100 ∧
    decode (0x03#8 ++ opnd) = decode 0x0300 ∧ decode (0x07#8 ++ opnd) = decode 0x0700

/-- Reserved opcodes (30_encoding.md R84): accepted, answered ILLEGAL_CMD, nothing changed, and the next command
behaves as if the word had not been sent. That an idle block accepts the word in a step of its own, which consumes one
host input and changes only the channel, is the model's choice (log 1, log 2). -/
def Obligations.ReservedOpcodesAnswered : Prop :=
  ∀ (s : State) (opc opnd : Byte), 8 ≤ opc.toNat →
    (s.channel = .idle → s.input.reset = false → s.input.command = some (opc ++ opnd) →
      step s = .next { s with channel := .inFlight (opc ++ opnd), inputs := s.inputs.tail }) ∧
    complete (opc ++ opnd) s = .next { s with channel := .responding 0x0300 } ∧
    ∀ w : Word, complete w { s with channel := .responding 0x0300 } = complete w s

/-! The step and the command channel -/

/-- A step with a command in flight runs the decoded command, or answers the reserved word; around it the step only
consumes one host input. The split of a transaction into steps is the model's choice (log 2, log 12). -/
def Obligations.StepRunsDecodedCommand : Prop :=
  (∀ (s : State) (w : Word) (i : Instr), s.channel = .inFlight w → s.input.reset = false → decode w = .ok i →
    i.wellFormed = true → step s = exec i { s with inputs := s.inputs.tail }) ∧
  (∀ (s : State) (opc opnd : Byte), s.channel = .inFlight (opc ++ opnd) → s.input.reset = false → 8 ≤ opc.toNat →
    step s = .next { s with channel := .responding 0x0300, inputs := s.inputs.tail }) ∧
  (∀ (s : State) (w : Word) (i : Instr), decode w = .ok i →
    step (s.withFetchWord 16 w.toNat) = exec i { s with channel := .inFlight w })

/-- The handshake: what each state of the channel does with the host's input (20_memory.md section 3, 70 section 3).
One input per step and the record of responses are the model's choice (log 1, 2, 3, 8). -/
def Obligations.HandshakeOneCommandAtATime : Prop :=
  ∀ s : State, s.input.reset = false →
    (s.channel = .idle → s.input.command = none → step s = .next { s with inputs := s.inputs.tail }) ∧
    (∀ w, s.channel = .idle → s.input.command = some w →
      step s = .next { s with channel := .inFlight w, inputs := s.inputs.tail }) ∧
    (∀ w, s.channel = .inFlight w → ∃ t r, step s = .next t ∧ t.channel = .responding r ∧
      t.delivered = s.delivered ∧ t.inputs = s.inputs.tail) ∧
    (∀ r, s.channel = .responding r → s.input.take = false → step s = .next { s with inputs := s.inputs.tail }) ∧
    (∀ r, s.channel = .responding r → s.input.take = true →
      step s = .next { s with channel := .idle, delivered := s.delivered ++ [r], inputs := s.inputs.tail })

/-- The reset event, whatever the channel holds and whatever else the host drives (70_reset_and_hazards.md R210). -/
def Obligations.ResetEventState : Prop :=
  ∀ s : State, s.input.reset = true → ∃ t, step s = .next t ∧
    t.i = 0x00 ∧ t.j = 0x00 ∧ t.valid = false ∧ t.keyLen.val = 0 ∧ t.channel = .idle

/-- What the host has received and will do outlives the reset event; a pending response is dropped even if the host
would take it in that step. The model's choice (log 6). -/
def Obligations.ResetEventKeepsHostRecord : Prop :=
  ∀ s : State, s.input.reset = true → ∃ t, step s = .next t ∧
    t.delivered = s.delivered ∧ t.inputs = s.inputs.tail

/-- The values after reset (10_state.md R36); `S` and `K` are unspecified, so nothing is said of them. -/
def Obligations.PowerUpState : Prop :=
  State.reset.i = 0x00 ∧ State.reset.j = 0x00 ∧ State.reset.valid = false ∧ State.reset.keyLen.val = 0 ∧
  State.reset.channel = .idle ∧
  readStatusReg .status State.reset = 0x04 ∧ readStatusReg .i State.reset = 0x00 ∧
  readStatusReg .j State.reset = 0x00 ∧ readStatusReg .keyLenLo State.reset = 0x00 ∧
  readStatusReg .keyLenHi State.reset = 0x00

/-- Every step answers a next state: nothing stops the block (60_exceptions.md sections 1 and 4, 70 section 5). -/
def Obligations.StepAlwaysAnswersNext : Prop :=
  ∀ s : State, ∃ t, step s = .next t

/-! NOP, KEY_CLEAR, KEY_PUSH -/

/-- NOP (40_key_schedule.md R100). -/
def Obligations.NopResult : Prop :=
  (∀ s : State, exec .nop s = .next { s with channel := .responding 0x0000 }) ∧
  ∀ opnd : Byte, decode (0x00#8 ++ opnd) = .ok .nop

/-- KEY_CLEAR (40_key_schedule.md R102). The bytes of `K` are unspecified after it (R33), so nothing is said of them. -/
def Obligations.KeyClearResult : Prop :=
  (∀ s : State, ∃ t, exec .keyClear s = .next t ∧
    t.keyLen.val = 0 ∧ t.channel = .responding 0x0000 ∧ keyEmpty t = true ∧ keyFull t = false ∧
    t.S = s.S ∧ t.i = s.i ∧ t.j = s.j ∧ t.valid = s.valid ∧ t.inputs = s.inputs ∧ t.delivered = s.delivered) ∧
  ∀ opnd : Byte, decode (0x01#8 ++ opnd) = .ok .keyClear

/-- KEY_PUSH (40_key_schedule.md R104): below 256 stored bytes, and at 256. -/
def Obligations.KeyPushResult : Prop :=
  (∀ (b : Byte) (s : State) (h : s.keyLen.val < 256), ∃ k : Table,
    exec (.keyPush b) s =
      .next { s with K := k, keyLen := ⟨s.keyLen.val + 1, by omega⟩, channel := .responding 0x0000 } ∧
    ∀ x : Byte, readEntry k x = if x.toNat = s.keyLen.val then b else readEntry s.K x) ∧
  (∀ (b : Byte) (s : State), s.keyLen.val = 256 →
    exec (.keyPush b) s = .next { s with channel := .responding 0x0000 }) ∧
  (∀ (b : Byte) (s t : State), exec (.keyPush b) s = .next t →
    keyEmpty t = false ∧ (keyFull t = true ↔ 255 ≤ s.keyLen.val)) ∧
  ∀ b : Byte, decode (0x02#8 ++ b) = .ok (.keyPush b)

/-! SCHEDULE -/

/-- SCHEDULE (40_key_schedule.md R106): the document's algorithm on the stored key, and the refusal. -/
def Obligations.ScheduleResult : Prop :=
  (∀ s : State, s.keyLen.val ≠ 0 → ∃ p : Table,
    exec .schedule s =
      .next { s with S := p, i := 0x00, j := 0x00, valid := true, channel := .responding 0x0000 } ∧
    ∀ x : Byte, (readEntry p x).toNat = docSchedule (storedKey s) x.toNat) ∧
  (∀ s : State, s.keyLen.val = 0 → exec .schedule s = .next { s with channel := .responding 0x0100 }) ∧
  ∀ opnd : Byte, decode (0x03#8 ++ opnd) = .ok .schedule

/-- SCHEDULE refused changes nothing, and a live session's keystream continues (40_key_schedule.md R111). -/
def Obligations.RefusedScheduleKeepsSession : Prop :=
  ∀ s : State, s.keyLen.val = 0 → ∃ t, exec .schedule s = .next t ∧
    t.S = s.S ∧ t.i = s.i ∧ t.j = s.j ∧ t.valid = s.valid ∧ t.K = s.K ∧ t.keyLen = s.keyLen ∧
    ∀ d : Byte, exec (.xform d) t = exec (.xform d) s

/-- Properties of a successful SCHEDULE (40_key_schedule.md R108). -/
def Obligations.ScheduleProperties : Prop :=
  (∀ s : State, s.keyLen.val ≠ 0 → ∃ t, exec .schedule s = .next t ∧
    IsPermutation t.S ∧ t.i = 0x00 ∧ t.j = 0x00 ∧ t.valid = true) ∧
  (∀ s u : State, s.keyLen.val ≠ 0 → s.keyLen = u.keyLen →
    (∀ x : Byte, x.toNat < s.keyLen.val → readEntry s.K x = readEntry u.K x) →
    ∃ t v, exec .schedule s = .next t ∧ exec .schedule u = .next v ∧ t.S = v.S ∧ t.i = v.i ∧ t.j = v.j)

/-- SCHEDULE is idempotent on a fixed key (20_memory.md section 4). -/
def Obligations.ScheduleIsIdempotent : Prop :=
  ∀ s t : State, exec .schedule s = .next t → exec .schedule t = .next t

/-- Key loading and scheduling as the host does it (40_key_schedule.md R109): every non-empty key, of any length, gives
the table of the document's `schedule` on the whole key; a key longer than 256 bytes leaves its first 256 stored. -/
def Obligations.KeysOfEveryLengthScheduled : Prop :=
  ∀ (key : List Byte) (s : State), key ≠ [] → ∃ t,
    runWords (scheduleWords key) s = some (t, List.replicate (key.length + 2) 0x0000) ∧
    t.keyLen.val = min key.length 256 ∧
    (∀ n < min key.length 256, readEntry t.K (BitVec.ofNat 8 n) = key.getD n 0) ∧
    (∀ x : Byte, (readEntry t.S x).toNat = docSchedule key x.toNat) ∧
    t.i = 0x00 ∧ t.j = 0x00 ∧ t.valid = true

/-- The empty key: `schedule` reports InvalidKey and nothing of a session changes (43_host_procedures.md section 1). -/
def Obligations.EmptyKeyRefused : Prop :=
  ∀ s : State, ∃ t, hostSchedule [] s = some (t, .error .invalidKey) ∧
    t.S = s.S ∧ t.i = s.i ∧ t.j = s.j ∧ t.valid = s.valid ∧ t.keyLen.val = 0

/-! XFORM -/

/-- XFORM (41_keystream.md R120): the new cursors, the swap entry by entry, the keystream byte read after the swap, and
the refusal. -/
def Obligations.XformResult : Prop :=
  (∀ (d : Byte) (s : State), s.valid = true → ∃ (i j : Byte) (p : Table),
    exec (.xform d) s =
      .next { s with i := i, j := j, S := p, channel := .responding (0x00#8 ++
        (d ^^^ readEntry p (readEntry p i + readEntry p j))) } ∧
    i.toNat = (s.i.toNat + 1) % 256 ∧ j.toNat = (s.j.toNat + (readEntry s.S i).toNat) % 256 ∧
    ∀ x : Byte, readEntry p x =
      if x = i then readEntry s.S j else if x = j then readEntry s.S i else readEntry s.S x) ∧
  (∀ (d : Byte) (s : State), s.valid = false → exec (.xform d) s = .next { s with channel := .responding 0x0200 }) ∧
  ∀ d : Byte, decode (0x04#8 ++ d) = .ok (.xform d)

/-- XFORM refused changes nothing and answers DATA 0x00 (41_keystream.md R127). -/
def Obligations.RefusedXformChangesNothing : Prop :=
  ∀ (d : Byte) (s : State), s.valid = false → ∃ t r, exec (.xform d) s = .next t ∧
    t.S = s.S ∧ t.i = s.i ∧ t.j = s.j ∧ t.valid = s.valid ∧ t.channel = .responding r ∧ responseData r = 0x00

/-- The data byte influences only the response, which is its XOR with one keystream byte (41_keystream.md, XFORM). -/
def Obligations.KeystreamIndependentOfData : Prop :=
  ∀ s : State, s.valid = true → ∃ (t : State) (k : Byte), ∀ d : Byte,
    exec (.xform d) s = .next { t with channel := .responding (0x00#8 ++ (d ^^^ k)) }

/-- The order inside one XFORM (41_keystream.md R123): `t` is the sum before the swap as well, and `k` is read from the
permuted table, so an index that was just swapped gives the value just moved there. -/
def Obligations.KeystreamReadAfterSwap : Prop :=
  ∀ (s : State) (i j t : Byte), s.valid = true → i = s.i + 1 → j = s.j + readEntry s.S i →
    t = readEntry s.S i + readEntry s.S j → ∃ u, exec (.xform 0x00) s = .next u ∧
      readEntry u.S i + readEntry u.S j = t ∧
      u.channel = .responding (0x00#8 ++
        (if t = i then readEntry s.S j else if t = j then readEntry s.S i else readEntry s.S t))

/-- The cursor `i` counts the XFORMs of a session modulo 256 (41_keystream.md, XFORM). -/
def Obligations.CursorCountsXforms : Prop :=
  ∀ (s : State) (data : List Byte), s.keyLen.val ≠ 0 → ∃ t u rs, exec .schedule s = .next t ∧
    runWords (transformWords data) t = some (u, rs) ∧ u.i.toNat = data.length % 256 ∧ u.valid = true

/-- `transform` is the document's algorithm on the whole buffer (43_host_procedures.md R162), from any session that
matches the document's cipher; every response is OK with the output byte. -/
def Obligations.TransformMatchesDocument : Prop :=
  ∀ (data : List Byte) (s : State) (c : DocCipher), s.valid = true → MatchesDocument s c → ∃ t rs,
    transformWords data = data.map (fun d => 0x04#8 ++ d) ∧
    runWords (transformWords data) s = some (t, rs) ∧ rs.length = data.length ∧
    hostTransform data s = some (t, .ok (rs.map responseData)) ∧
    rs.map BitVec.toNat = (docTransform data c).2 ∧ MatchesDocument t (docTransform data c).1 ∧ t.valid = true

/-- Encryption and decryption are the same procedure (43_host_procedures.md R164): applied twice, with a new schedule of
the same key, which may be a lone SCHEDULE since the key stays stored, it returns the buffer; the lengths agree. -/
def Obligations.EncryptionRoundTrip : Prop :=
  ∀ (key data : List Byte) (s : State), key ≠ [] → ∃ t out,
    hostEncrypt key data 0 s = some (t, .ok out) ∧ out.length = data.length ∧
    (∀ u : State, ∃ v, hostEncrypt key out 0 u = some (v, .ok data)) ∧
    ∃ u v, transact 0x0300 t = some (u, 0x0000) ∧ hostTransform out u = some (v, .ok data)

/-- The skip region (43_host_procedures.md R167, R168): too large a skip count fails; else the skipped bytes stay in
clear and the keystream starts at the suffix. That the failure comes before any command is sent, and before an empty key
is noticed, is the model's choice (log 14): R167 forbids XFORMs and allows sending nothing. -/
def Obligations.SkipRegionPolicy : Prop :=
  (∀ (key data : List Byte) (skip : Nat) (s : State), data.length < skip →
    hostEncrypt key data skip s = some (s, .error .invalidSkipCount)) ∧
  (∀ (key data : List Byte) (skip : Nat) (s : State), key ≠ [] → skip ≤ data.length → ∃ t out,
    hostEncrypt key (data.drop skip) 0 s = some (t, .ok out) ∧ out.length = data.length - skip ∧
    hostEncrypt key data skip s = some (t, .ok (data.take skip ++ out)))

/-! READ_S, READ_REG, END -/

/-- READ_S (42_session_readback.md R140): the entry, the refusal, and that the 256 entries of a permutation are read
as a permutation. -/
def Obligations.ReadSResult : Prop :=
  (∀ (a : Byte) (s : State), s.valid = true →
    exec (.readS a) s = .next { s with channel := .responding (0x00#8 ++ readEntry s.S a) }) ∧
  (∀ (a : Byte) (s : State), s.valid = false →
    exec (.readS a) s = .next { s with channel := .responding 0x0200 }) ∧
  (∀ (v : Byte) (s : State), s.valid = true → IsPermutation s.S → ∃ a : Byte,
    exec (.readS a) s = .next { s with channel := .responding (0x00#8 ++ v) } ∧
    ∀ b : Byte, exec (.readS b) s = .next { s with channel := .responding (0x00#8 ++ v) } → b = a) ∧
  ∀ a : Byte, decode (0x05#8 ++ a) = .ok (.readS a)

/-- Reading all 256 entries (DUMP_S) of a session gives each byte once (42_session_readback.md, READ_S corner cases). -/
def Obligations.DumpShowsPermutation : Prop :=
  ∀ s : State, s.valid = true → IsPermutation s.S → ∃ t rs,
    runWords (AsmLine.dumpS.expand.map encode) s = some (t, rs) ∧
    rs.length = 256 ∧ ∀ v : Byte, (rs.map responseData).count v = 1

/-- READ_REG (42_session_readback.md R144): the five registers, the reserved selects, and the cursors of a block
without a session. -/
def Obligations.ReadRegResult : Prop :=
  (∀ s : State,
    exec (.readReg 0x00) s = .next { s with channel := .responding (0x00#8 ++ (0#5 ++
      BitVec.ofBool (decide (s.keyLen.val = 0)) ++ BitVec.ofBool (decide (s.keyLen.val = 256)) ++
      BitVec.ofBool s.valid)) } ∧
    exec (.readReg 0x01) s = .next { s with channel := .responding (0x00#8 ++ s.i) } ∧
    exec (.readReg 0x02) s = .next { s with channel := .responding (0x00#8 ++ s.j) } ∧
    exec (.readReg 0x03) s = .next { s with channel := .responding (0x00#8 ++ BitVec.ofNat 8 (s.keyLen.val % 256)) } ∧
    exec (.readReg 0x04) s = .next { s with channel := .responding (if s.keyLen.val = 256 then 0x0001 else 0x0000) } ∧
    ∀ sel : Byte, 5 ≤ sel.toNat → exec (.readReg sel) s = .next { s with channel := .responding 0x0400 }) ∧
  (∀ s : State, Inv s → s.valid = false →
    exec (.readReg 0x01) s = .next { s with channel := .responding 0x0000 } ∧
    exec (.readReg 0x02) s = .next { s with channel := .responding 0x0000 }) ∧
  ∀ sel : Byte, decode (0x06#8 ++ sel) = .ok (.readReg sel)

/-- The STATUS fields (10_state.md R35), and what KEY_EMPTY tells the host. -/
def Obligations.StatusFields : Prop :=
  ∀ s : State,
    (statusByte s).getLsbD 0 = s.valid ∧
    ((statusByte s).getLsbD 1 = true ↔ s.keyLen.val = 256) ∧
    ((statusByte s).getLsbD 2 = true ↔ s.keyLen.val = 0) ∧
    (statusByte s).extractLsb' 3 5 = 0 ∧
    ((statusByte s).getLsbD 2 = true ↔ exec .schedule s = .next { s with channel := .responding 0x0100 }) ∧
    statusByte State.reset = 0x04

/-- END (42_session_readback.md R148). `S` is unspecified after it (R31), so nothing is said of it. Without a session
it changes nothing observable. -/
def Obligations.EndResult : Prop :=
  (∀ s : State, ∃ t, exec .endSession s = .next t ∧
    t.valid = false ∧ t.i = 0x00 ∧ t.j = 0x00 ∧ t.K = s.K ∧ t.keyLen = s.keyLen ∧ t.channel = .responding 0x0000 ∧
    t.inputs = s.inputs ∧ t.delivered = s.delivered ∧
    (∀ d : Byte, exec (.xform d) t = .next { t with channel := .responding 0x0200 }) ∧
    (∀ a : Byte, exec (.readS a) t = .next { t with channel := .responding 0x0200 }) ∧
    (Inv s → s.valid = false → Indistinguishable { s with channel := .responding 0x0000 } t)) ∧
  ∀ opnd : Byte, decode (0x07#8 ++ opnd) = .ok .endSession

/-- In the state right after power-up (70_reset_and_hazards.md section 2): XFORM and READ_S refuse, READ_REG of the five
registers and NOP answer OK. -/
def Obligations.RefusalsRightAfterReset : Prop :=
  (∀ d : Byte, exec (.xform d) State.reset = .next { State.reset with channel := .responding 0x0200 }) ∧
  (∀ a : Byte, exec (.readS a) State.reset = .next { State.reset with channel := .responding 0x0200 }) ∧
  (∀ sel : Byte, sel.toNat < 5 → ∃ v : Byte,
    exec (.readReg sel) State.reset = .next { State.reset with channel := .responding (0x00#8 ++ v) }) ∧
  exec .nop State.reset = .next { State.reset with channel := .responding 0x0000 }

/-! Errors -/

/-- A failing command writes no state and answers DATA 0x00, and the next command behaves as it would have without it
(60_exceptions.md R180). -/
def Obligations.FailedCommandWritesNothing : Prop :=
  ∀ (w : Word) (s : State), ∃ t r, complete w s = .next t ∧ t.channel = .responding r ∧
    (responseCode r ≠ 0 → t = { s with channel := .responding r } ∧ responseData r = 0x00 ∧
      ∀ v : Word, complete v t = complete v s)

/-- The errors each command can report, complete (60_exceptions.md R186). -/
def Obligations.ErrorsPerCommand : Prop :=
  ∀ (w : Word) (s : State), ∃ t r, complete w s = .next t ∧ t.channel = .responding r ∧
    (responseCode r).toNat =
      match decode w with
      | .ok .nop => 0
      | .ok .keyClear => 0
      | .ok (.keyPush _) => 0
      | .ok .schedule => if s.keyLen.val = 0 then 1 else 0
      | .ok (.xform _) => if s.valid = true then 0 else 2
      | .ok (.readS _) => if s.valid = true then 0 else 2
      | .ok (.readReg sel) => if 5 ≤ sel.toNat then 4 else 0
      | .ok .endSession => 0
      | .error _ => 3

/-- Retrying a failed command fails again with the same code (60_exceptions.md R188). -/
def Obligations.RetryFailsAgain : Prop :=
  ∀ (w r : Word) (s t : State), complete w s = .next t → t.channel = .responding r → responseCode r ≠ 0 →
    ∃ u, complete w (deliver r t) = .next u ∧ u.channel = .responding r

/-! The whole machine -/

/-- The block's invariant holds after power-up. -/
def Obligations.ResetMeetsInvariant : Prop := Inv State.reset

/-- Every step keeps the block's invariant (10_state.md R22; the cursors without a session; the responses). -/
def Obligations.StepKeepsInvariant : Prop :=
  ∀ s t : State, Inv s → step s = .next t → Inv t

/-- A session begins only with a successful SCHEDULE and `VALID` is cleared only by END and reset (10_state.md
section 2, 42_session_readback.md, END). -/
def Obligations.ValidChangesOnlyBy : Prop :=
  ∀ s t : State, step s = .next t → t.valid ≠ s.valid →
    (s.valid = false ∧ s.input.reset = false ∧ s.keyLen.val ≠ 0 ∧
      ∃ w, s.channel = .inFlight w ∧ decode w = .ok .schedule) ∨
    (s.valid = true ∧
      (s.input.reset = true ∨ ∃ w, s.channel = .inFlight w ∧ decode w = .ok .endSession))

/-- `S` is written only by SCHEDULE and XFORM, and is left unspecified only by END and reset (10_state.md sections 1, 4). -/
def Obligations.PermutationStateWrittenOnlyBy : Prop :=
  ∀ s t : State, step s = .next t → t.S ≠ s.S →
    s.input.reset = true ∨ ∃ w i, s.channel = .inFlight w ∧ decode w = .ok i ∧
      ((i = .schedule ∧ s.keyLen.val ≠ 0) ∨ ((∃ d, i = .xform d) ∧ s.valid = true) ∨ i = .endSession)

/-- `K` is written only by KEY_PUSH, and is left unspecified only by KEY_CLEAR and reset; `key_len` is changed only by
those (10_state.md section 3). -/
def Obligations.KeyStoreWrittenOnlyBy : Prop :=
  ∀ s t : State, step s = .next t → t.K ≠ s.K ∨ t.keyLen ≠ s.keyLen →
    s.input.reset = true ∨ ∃ w, s.channel = .inFlight w ∧
      (((∃ b, decode w = .ok (.keyPush b)) ∧ s.keyLen.val < 256) ∨ decode w = .ok .keyClear)

/-- The cursors are written only by SCHEDULE, XFORM, END and reset, and never with a value of the host's choosing
(10_state.md section 2). -/
def Obligations.CursorsWrittenOnlyBy : Prop :=
  ∀ s t : State, step s = .next t → t.i ≠ s.i ∨ t.j ≠ s.j →
    (s.input.reset = true ∨ ∃ w, s.channel = .inFlight w ∧
      (decode w = .ok .schedule ∨ decode w = .ok .endSession)) ∧ t.i = 0x00 ∧ t.j = 0x00 ∨
    (∃ w d, s.channel = .inFlight w ∧ decode w = .ok (.xform d) ∧ s.valid = true ∧
      t.i = s.i + 1 ∧ t.j = s.j + readEntry s.S (s.i + 1))

/-- Unspecified storage never reaches a response (10_state.md section 4, 70_reset_and_hazards.md section 2): two states
that differ only in it stay so through any number of steps, with the same responses delivered. -/
def Obligations.UnspecifiedStorageUnobservable : Prop :=
  ∀ (n : Nat) (s t : State), Indistinguishable s t → ∃ s' t',
    core.run n s = .next s' ∧ core.run n t = .next t' ∧ Indistinguishable s' t'

/-- No command returns a key byte (10_state.md section 3): whatever the key store holds, the response of a command is the
same, and only SCHEDULE carries the key into the rest of the state. For END the last clause also says that the two runs
leave the same bytes in the unspecified `S`: the model's choice and no rule of the spec (log 5: the free value depends on
`draws` and the old `S` alone, which are equal here; R31 lets no claim about the block depend on these bytes). -/
def Obligations.KeyStoreNeverReturned : Prop :=
  ∀ (i : Instr) (s : State) (k : Table), ∃ u v,
    exec i s = .next u ∧ exec i { s with K := k } = .next v ∧ v.channel = u.channel ∧
    (i ≠ .schedule → v = { u with K := v.K })

/-- Sequential consistency (20_memory.md R58): a host that presents each command word when the block is ready and takes
each response drives the steps to the state and the responses of the commands done one after the other. The three steps
of a transaction are the model's choice (log 2). -/
def Obligations.StepsRefineCommandSequence : Prop :=
  ∀ (ws : List Word) (s : State), s.channel = .idle → s.inputs = [] → ∃ t rs,
    runWords ws s = some (t, rs) ∧ rs.length = ws.length ∧ t.delivered = s.delivered ++ rs ∧
    core.run (3 * ws.length)
      { s with inputs := ws.flatMap fun w => [HostInput.present w, HostInput.quiet, HostInput.taking] } = .next t

/-- Whatever the host drives short of reset, and however long the run, what the block has done is a sequence of commands
taken from those presented, in order, one after the other, and its responses are theirs (20_memory.md sections 3 and 6).
The steps and the host inputs are the model's choice (log 1, 2). -/
def Obligations.AnyHostDrivesCommandsInOrder : Prop :=
  ∀ (n : Nat) (s : State), s.channel = .idle → (∀ inp ∈ s.inputs, inp.reset = false) → ∃ t ws u rs,
    core.run n s = .next t ∧ ws.Sublist (s.inputs.filterMap HostInput.command) ∧
    runWords ws s = some (u, rs) ∧ u.delivered = s.delivered ++ rs ∧
    ((t.channel = .idle ∧ t = { u with inputs := t.inputs }) ∨
      (∃ w, t.channel = .inFlight w ∧ t = { u with channel := .inFlight w, inputs := t.inputs } ∧
        (ws ++ [w]).Sublist (s.inputs.filterMap HostInput.command)) ∨
      (∃ r, t.channel = .responding r ∧ deliver r t = { u with inputs := t.inputs }))

/-! The assembler -/

/-- The assembler emits only canonical words (30_encoding.md sections 2 and 5). -/
def Obligations.AssemblerEmitsCanonicalWords : Prop :=
  ∀ (lines : List String) (ws : List Word), assemble lines = .ok ws → ∀ w ∈ ws, canonicalWord w = true

/-- The pseudo-instructions and their expansions (30_encoding.md R88). -/
def Obligations.PseudoInstructionExpansions : Prop :=
  (∀ bytes : List Byte, (AsmLine.key bytes).expand = .keyClear :: bytes.map .keyPush) ∧
  AsmLine.keystream.expand = [.xform 0x00] ∧
  (∀ bytes : List Byte, (AsmLine.xforms bytes).expand = bytes.map .xform) ∧
  AsmLine.dumpS.expand.length = 256 ∧
  (∀ n < 256, AsmLine.dumpS.expand[n]? = some (.readS (BitVec.ofNat 8 n))) ∧
  (AsmLine.key []).expand = [.keyClear] ∧ (AsmLine.xforms []).expand = []
end

