-- ==== Sys2Proof/Laws/Encoding.lean ====
section
/-! SUPPORT. The fields of command and response words. -/

namespace Sys2Proof

@[simp] theorem opcodeOf_commandWord (opc opnd : Byte) : opcodeOf (commandWord opc opnd) = opc :=
  BitVec.extractLsb'_append_eq_left

@[simp] theorem operandOf_commandWord (opc opnd : Byte) : operandOf (commandWord opc opnd) = opnd :=
  BitVec.extractLsb'_append_eq_right

/-- A word is its two fields (30_encoding.md R71). -/
theorem commandWord_fields (w : Word) : commandWord (opcodeOf w) (operandOf w) = w := by
  rw [commandWord, opcodeOf, operandOf, BitVec.extractLsb'_append_extractLsb'_eq_extractLsb' (by rfl)]
  simp

/-- A word of 16 bits is its own table word. -/
@[simp] theorem tableWord_toNat (w : Word) : tableWord 16 w.toNat = w := by
  rw [tableWord, Nat.mod_eq_of_lt w.isLt, BitVec.ofNat_toNat, BitVec.setWidth_eq]

namespace Machine

@[simp] theorem responseData_responseWord (c : RspCode) (d : Byte) : responseData (responseWord c d) = d :=
  BitVec.extractLsb'_append_eq_right

@[simp] theorem responseCode_responseWord (c : RspCode) (d : Byte) : responseCode (responseWord c d) = c.bits := by
  ext i hi
  have : ¬ (8 + i < 8) := by omega
  simp only [responseCode, responseWord, BitVec.getElem_extractLsb', BitVec.getLsbD_append]
  simp [this, hi, BitVec.getLsbD_eq_getElem]

@[simp] theorem responseReserved_responseWord (c : RspCode) (d : Byte) :
    responseReserved (responseWord c d) = 0 := by
  ext i hi
  have : ¬ (11 + i < 8) := by omega
  have : ¬ (11 + i - 8 < 3) := by omega
  simp only [responseReserved, responseWord, BitVec.getElem_extractLsb', BitVec.getLsbD_append]
  simp [*]

/-- An OK response is its data byte with zeros above (30_encoding.md R80, R81). -/
theorem responseWord_ok (d : Byte) : responseWord .ok d = 0x00#8 ++ d := rfl

theorem responseWord_ok_zero : responseWord .ok 0x00 = 0x0000 := rfl

theorem responseWord_invalidKey : responseWord (.error .invalidKey) 0x00 = 0x0100 := rfl

theorem responseWord_notScheduled : responseWord (.error .notScheduled) 0x00 = 0x0200 := rfl

theorem responseWord_illegalCmd : responseWord (.error .illegalCmd) 0x00 = 0x0300 := rfl

theorem responseWord_illegalOperand : responseWord (.error .illegalOperand) 0x00 = 0x0400 := rfl

end Machine

end Sys2Proof
end

