-- ==== Sys2Proof/Laws/Flags.lean ====
section
/-! SUPPORT. What the status bits and the register select say. -/

namespace Sys2Proof.Machine

theorem keyEmpty_iff (s : State) : keyEmpty s = true ↔ s.keyLen.val = 0 := by
  simp [keyEmpty]

theorem keyFull_iff (s : State) : keyFull s = true ↔ s.keyLen.val = 256 := by
  simp [keyFull]

/-- The reserved selects name no register (10_state.md R34). -/
theorem selectReg_eq_none_iff (sel : Byte) : selectReg sel = none ↔ 5 ≤ sel.toNat := by
  constructor
  · intro h
    by_contra hlt
    have : sel.toNat = 0 ∨ sel.toNat = 1 ∨ sel.toNat = 2 ∨ sel.toNat = 3 ∨ sel.toNat = 4 := by omega
    rcases this with e | e | e | e | e <;> simp only [selectReg, e, reduceCtorEq] at h
  · intro h
    unfold selectReg
    split <;> first | omega | rfl

end Sys2Proof.Machine
end

