-- ==== Sys2Proof/Laws/PerInstr.lean ====
section
/-! SUPPORT. A statement about every command as syntax, one lemma per constructor. -/

namespace Sys2Proof.Laws.OpcodeField

/-- The opcode field of the encoded command is its row of 30_encoding.md R74, its operand field is its operand, and it
is well-formed. -/
def Statement (i : Instr) : Prop :=
  opcodeOf (encode i) = i.opcode ∧ operandOf (encode i) = i.operand ∧ i.opcode.toNat < 8 ∧ i.wellFormed = true

theorem nop : Statement .nop :=
  ⟨opcodeOf_commandWord _ _, operandOf_commandWord _ _, (by decide : 0 < 8), rfl⟩
theorem keyClear : Statement .keyClear :=
  ⟨opcodeOf_commandWord _ _, operandOf_commandWord _ _, (by decide : 1 < 8), rfl⟩
theorem keyPush (b : Byte) : Statement (.keyPush b) :=
  ⟨opcodeOf_commandWord _ _, operandOf_commandWord _ _, (by decide : 2 < 8), rfl⟩
theorem schedule : Statement .schedule :=
  ⟨opcodeOf_commandWord _ _, operandOf_commandWord _ _, (by decide : 3 < 8), rfl⟩
theorem xform (d : Byte) : Statement (.xform d) :=
  ⟨opcodeOf_commandWord _ _, operandOf_commandWord _ _, (by decide : 4 < 8), rfl⟩
theorem readS (a : Byte) : Statement (.readS a) :=
  ⟨opcodeOf_commandWord _ _, operandOf_commandWord _ _, (by decide : 5 < 8), rfl⟩
theorem readReg (sel : Byte) : Statement (.readReg sel) :=
  ⟨opcodeOf_commandWord _ _, operandOf_commandWord _ _, (by decide : 6 < 8), rfl⟩
theorem endSession : Statement .endSession :=
  ⟨opcodeOf_commandWord _ _, operandOf_commandWord _ _, (by decide : 7 < 8), rfl⟩

end Sys2Proof.Laws.OpcodeField
end

