-- ==== Sys2Proof/Laws/State.lean ====
section
/-! SUPPORT. What each update of the state does to each field, true by unfolding, so that no proof unfolds a record
update. -/

namespace Sys2Proof.Machine

@[simp] theorem setCursors_i (i j : Byte) (s : State) : (s.setCursors i j).i = i := rfl
@[simp] theorem setCursors_j (i j : Byte) (s : State) : (s.setCursors i j).j = j := rfl
@[simp] theorem setCursors_valid (i j : Byte) (s : State) : (s.setCursors i j).valid = s.valid := rfl
@[simp] theorem setCursors_keyLen (i j : Byte) (s : State) : (s.setCursors i j).keyLen = s.keyLen := rfl
@[simp] theorem setCursors_channel (i j : Byte) (s : State) : (s.setCursors i j).channel = s.channel := rfl
@[simp] theorem setCursors_S (i j : Byte) (s : State) : (s.setCursors i j).S = s.S := rfl
@[simp] theorem setCursors_K (i j : Byte) (s : State) : (s.setCursors i j).K = s.K := rfl
@[simp] theorem setCursors_inputs (i j : Byte) (s : State) : (s.setCursors i j).inputs = s.inputs := rfl
@[simp] theorem setCursors_delivered (i j : Byte) (s : State) : (s.setCursors i j).delivered = s.delivered := rfl
@[simp] theorem setCursors_draws (i j : Byte) (s : State) : (s.setCursors i j).draws = s.draws := rfl

@[simp] theorem setValid_i (v : Bool) (s : State) : (s.setValid v).i = s.i := rfl
@[simp] theorem setValid_j (v : Bool) (s : State) : (s.setValid v).j = s.j := rfl
@[simp] theorem setValid_valid (v : Bool) (s : State) : (s.setValid v).valid = v := rfl
@[simp] theorem setValid_keyLen (v : Bool) (s : State) : (s.setValid v).keyLen = s.keyLen := rfl
@[simp] theorem setValid_channel (v : Bool) (s : State) : (s.setValid v).channel = s.channel := rfl
@[simp] theorem setValid_S (v : Bool) (s : State) : (s.setValid v).S = s.S := rfl
@[simp] theorem setValid_K (v : Bool) (s : State) : (s.setValid v).K = s.K := rfl
@[simp] theorem setValid_inputs (v : Bool) (s : State) : (s.setValid v).inputs = s.inputs := rfl
@[simp] theorem setValid_delivered (v : Bool) (s : State) : (s.setValid v).delivered = s.delivered := rfl
@[simp] theorem setValid_draws (v : Bool) (s : State) : (s.setValid v).draws = s.draws := rfl

@[simp] theorem setKeyLen_i (n : Fin 257) (s : State) : (s.setKeyLen n).i = s.i := rfl
@[simp] theorem setKeyLen_j (n : Fin 257) (s : State) : (s.setKeyLen n).j = s.j := rfl
@[simp] theorem setKeyLen_valid (n : Fin 257) (s : State) : (s.setKeyLen n).valid = s.valid := rfl
@[simp] theorem setKeyLen_keyLen (n : Fin 257) (s : State) : (s.setKeyLen n).keyLen = n := rfl
@[simp] theorem setKeyLen_channel (n : Fin 257) (s : State) : (s.setKeyLen n).channel = s.channel := rfl
@[simp] theorem setKeyLen_S (n : Fin 257) (s : State) : (s.setKeyLen n).S = s.S := rfl
@[simp] theorem setKeyLen_K (n : Fin 257) (s : State) : (s.setKeyLen n).K = s.K := rfl
@[simp] theorem setKeyLen_inputs (n : Fin 257) (s : State) : (s.setKeyLen n).inputs = s.inputs := rfl
@[simp] theorem setKeyLen_delivered (n : Fin 257) (s : State) : (s.setKeyLen n).delivered = s.delivered := rfl
@[simp] theorem setKeyLen_draws (n : Fin 257) (s : State) : (s.setKeyLen n).draws = s.draws := rfl

@[simp] theorem setS_i (t : Table) (s : State) : (s.setS t).i = s.i := rfl
@[simp] theorem setS_j (t : Table) (s : State) : (s.setS t).j = s.j := rfl
@[simp] theorem setS_valid (t : Table) (s : State) : (s.setS t).valid = s.valid := rfl
@[simp] theorem setS_keyLen (t : Table) (s : State) : (s.setS t).keyLen = s.keyLen := rfl
@[simp] theorem setS_channel (t : Table) (s : State) : (s.setS t).channel = s.channel := rfl
@[simp] theorem setS_S (t : Table) (s : State) : (s.setS t).S = t := rfl
@[simp] theorem setS_K (t : Table) (s : State) : (s.setS t).K = s.K := rfl
@[simp] theorem setS_inputs (t : Table) (s : State) : (s.setS t).inputs = s.inputs := rfl
@[simp] theorem setS_delivered (t : Table) (s : State) : (s.setS t).delivered = s.delivered := rfl
@[simp] theorem setS_draws (t : Table) (s : State) : (s.setS t).draws = s.draws := rfl

@[simp] theorem setK_i (t : Table) (s : State) : (s.setK t).i = s.i := rfl
@[simp] theorem setK_j (t : Table) (s : State) : (s.setK t).j = s.j := rfl
@[simp] theorem setK_valid (t : Table) (s : State) : (s.setK t).valid = s.valid := rfl
@[simp] theorem setK_keyLen (t : Table) (s : State) : (s.setK t).keyLen = s.keyLen := rfl
@[simp] theorem setK_channel (t : Table) (s : State) : (s.setK t).channel = s.channel := rfl
@[simp] theorem setK_S (t : Table) (s : State) : (s.setK t).S = s.S := rfl
@[simp] theorem setK_K (t : Table) (s : State) : (s.setK t).K = t := rfl
@[simp] theorem setK_inputs (t : Table) (s : State) : (s.setK t).inputs = s.inputs := rfl
@[simp] theorem setK_delivered (t : Table) (s : State) : (s.setK t).delivered = s.delivered := rfl
@[simp] theorem setK_draws (t : Table) (s : State) : (s.setK t).draws = s.draws := rfl

@[simp] theorem setChannel_i (c : Channel) (s : State) : (s.setChannel c).i = s.i := rfl
@[simp] theorem setChannel_j (c : Channel) (s : State) : (s.setChannel c).j = s.j := rfl
@[simp] theorem setChannel_valid (c : Channel) (s : State) : (s.setChannel c).valid = s.valid := rfl
@[simp] theorem setChannel_keyLen (c : Channel) (s : State) : (s.setChannel c).keyLen = s.keyLen := rfl
@[simp] theorem setChannel_channel (c : Channel) (s : State) : (s.setChannel c).channel = c := rfl
@[simp] theorem setChannel_S (c : Channel) (s : State) : (s.setChannel c).S = s.S := rfl
@[simp] theorem setChannel_K (c : Channel) (s : State) : (s.setChannel c).K = s.K := rfl
@[simp] theorem setChannel_inputs (c : Channel) (s : State) : (s.setChannel c).inputs = s.inputs := rfl
@[simp] theorem setChannel_delivered (c : Channel) (s : State) : (s.setChannel c).delivered = s.delivered := rfl
@[simp] theorem setChannel_draws (c : Channel) (s : State) : (s.setChannel c).draws = s.draws := rfl

@[simp] theorem forgetS_i (s : State) : s.forgetS.i = s.i := rfl
@[simp] theorem forgetS_j (s : State) : s.forgetS.j = s.j := rfl
@[simp] theorem forgetS_valid (s : State) : s.forgetS.valid = s.valid := rfl
@[simp] theorem forgetS_keyLen (s : State) : s.forgetS.keyLen = s.keyLen := rfl
@[simp] theorem forgetS_channel (s : State) : s.forgetS.channel = s.channel := rfl
@[simp] theorem forgetS_S (s : State) : s.forgetS.S = tableOf (Config.unspecifiedS s.draws s.S) := rfl
@[simp] theorem forgetS_K (s : State) : s.forgetS.K = s.K := rfl
@[simp] theorem forgetS_inputs (s : State) : s.forgetS.inputs = s.inputs := rfl
@[simp] theorem forgetS_delivered (s : State) : s.forgetS.delivered = s.delivered := rfl
@[simp] theorem forgetS_draws (s : State) : s.forgetS.draws = s.draws + 1 := rfl

@[simp] theorem forgetK_i (s : State) : s.forgetK.i = s.i := rfl
@[simp] theorem forgetK_j (s : State) : s.forgetK.j = s.j := rfl
@[simp] theorem forgetK_valid (s : State) : s.forgetK.valid = s.valid := rfl
@[simp] theorem forgetK_keyLen (s : State) : s.forgetK.keyLen = s.keyLen := rfl
@[simp] theorem forgetK_channel (s : State) : s.forgetK.channel = s.channel := rfl
@[simp] theorem forgetK_S (s : State) : s.forgetK.S = s.S := rfl
@[simp] theorem forgetK_K (s : State) : s.forgetK.K = tableOf (Config.unspecifiedK s.draws s.K) := rfl
@[simp] theorem forgetK_inputs (s : State) : s.forgetK.inputs = s.inputs := rfl
@[simp] theorem forgetK_delivered (s : State) : s.forgetK.delivered = s.delivered := rfl
@[simp] theorem forgetK_draws (s : State) : s.forgetK.draws = s.draws + 1 := rfl

@[simp] theorem popInput_i (s : State) : s.popInput.i = s.i := rfl
@[simp] theorem popInput_j (s : State) : s.popInput.j = s.j := rfl
@[simp] theorem popInput_valid (s : State) : s.popInput.valid = s.valid := rfl
@[simp] theorem popInput_keyLen (s : State) : s.popInput.keyLen = s.keyLen := rfl
@[simp] theorem popInput_channel (s : State) : s.popInput.channel = s.channel := rfl
@[simp] theorem popInput_S (s : State) : s.popInput.S = s.S := rfl
@[simp] theorem popInput_K (s : State) : s.popInput.K = s.K := rfl
@[simp] theorem popInput_inputs (s : State) : s.popInput.inputs = s.inputs.tail := rfl
@[simp] theorem popInput_delivered (s : State) : s.popInput.delivered = s.delivered := rfl
@[simp] theorem popInput_draws (s : State) : s.popInput.draws = s.draws := rfl

@[simp] theorem deliver_i (r : Word) (s : State) : (deliver r s).i = s.i := rfl
@[simp] theorem deliver_j (r : Word) (s : State) : (deliver r s).j = s.j := rfl
@[simp] theorem deliver_valid (r : Word) (s : State) : (deliver r s).valid = s.valid := rfl
@[simp] theorem deliver_keyLen (r : Word) (s : State) : (deliver r s).keyLen = s.keyLen := rfl
@[simp] theorem deliver_channel (r : Word) (s : State) : (deliver r s).channel = .idle := rfl
@[simp] theorem deliver_S (r : Word) (s : State) : (deliver r s).S = s.S := rfl
@[simp] theorem deliver_K (r : Word) (s : State) : (deliver r s).K = s.K := rfl
@[simp] theorem deliver_inputs (r : Word) (s : State) : (deliver r s).inputs = s.inputs := rfl
@[simp] theorem deliver_delivered (r : Word) (s : State) : (deliver r s).delivered = s.delivered ++ [r] := rfl
@[simp] theorem deliver_draws (r : Word) (s : State) : (deliver r s).draws = s.draws := rfl

@[simp] theorem resetBlock_i (s : State) : (resetBlock s).i = 0x00 := rfl
@[simp] theorem resetBlock_j (s : State) : (resetBlock s).j = 0x00 := rfl
@[simp] theorem resetBlock_valid (s : State) : (resetBlock s).valid = false := rfl
@[simp] theorem resetBlock_keyLen (s : State) : (resetBlock s).keyLen = 0 := rfl
@[simp] theorem resetBlock_channel (s : State) : (resetBlock s).channel = .idle := rfl
@[simp] theorem resetBlock_S (s : State) : (resetBlock s).S = tableOf (Config.unspecifiedS s.draws s.S) := rfl
@[simp] theorem resetBlock_K (s : State) : (resetBlock s).K = tableOf (Config.unspecifiedK (s.draws + 1) s.K) := rfl
@[simp] theorem resetBlock_inputs (s : State) : (resetBlock s).inputs = s.inputs := rfl
@[simp] theorem resetBlock_delivered (s : State) : (resetBlock s).delivered = s.delivered := rfl
@[simp] theorem resetBlock_draws (s : State) : (resetBlock s).draws = s.draws + 2 := rfl

end Sys2Proof.Machine
end

