-- ==== Sys2Proof/Laws/Step.lean ====
section
/-! SUPPORT. What a response, an error, a command word and a step can do, each said once. -/

namespace Sys2Proof.Machine

theorem respond_eq (c : RspCode) (d : Byte) (s : State) :
    respond c d s = .next (s.setChannel (.responding (responseWord c d))) := rfl

/-- A failing command changes nothing but the channel (60_exceptions.md R180). -/
theorem raise_eq (e : CmdError) (s : State) :
    raise e s = .next (s.setChannel (.responding (responseWord (.error e) 0x00))) := rfl

/-- Every rejected word is answered ILLEGAL_CMD (30_encoding.md R84). -/
theorem answerReject_eq (r : Reject) (s : State) : answerReject r s = raise .illegalCmd s := by
  cases r
  rfl

theorem complete_of_decode {w : Word} {i : Instr} (h : decode w = .ok i) (s : State) : complete w s = exec i s := by
  simp only [complete, h]

theorem complete_of_reject {w : Word} {r : Reject} (h : decode w = .error r) (s : State) :
    complete w s = raise .illegalCmd s := by
  simp only [complete, h, answerReject_eq]

theorem step_of_reset {s : State} (h : s.input.reset = true) : step s = .next (resetBlock s.popInput) := by
  simp only [step, h, if_true]

theorem step_of_idle {s : State} (h : s.input.reset = false) (hc : s.channel = .idle) :
    step s = .next (idleStep s.input s.popInput) := by
  simp only [step, h, hc, Bool.false_eq_true, if_false]

theorem step_of_inFlight {s : State} {w : Word} (h : s.input.reset = false) (hc : s.channel = .inFlight w) :
    step s = complete w s.popInput := by
  simp only [step, h, hc, Bool.false_eq_true, if_false]

theorem step_of_responding {s : State} {r : Word} (h : s.input.reset = false) (hc : s.channel = .responding r) :
    step s = .next (respondingStep s.input r s.popInput) := by
  simp only [step, h, hc, Bool.false_eq_true, if_false]

/-- Everything a step that answers a next state can have done. -/
theorem step_cases {s t : State} (h : step s = .next t) :
    (s.input.reset = true ∧ t = resetBlock s.popInput) ∨
    (s.input.reset = false ∧ s.channel = .idle ∧ t = idleStep s.input s.popInput) ∨
    (∃ w, s.input.reset = false ∧ s.channel = .inFlight w ∧ complete w s.popInput = .next t) ∨
    (∃ r, s.input.reset = false ∧ s.channel = .responding r ∧ t = respondingStep s.input r s.popInput) := by
  cases hr : s.input.reset with
  | true =>
    rw [step_of_reset hr] at h
    exact .inl ⟨rfl, (Host.Outcome.next.inj h).symm⟩
  | false =>
    cases hc : s.channel with
    | idle =>
      rw [step_of_idle hr hc] at h
      exact .inr (.inl ⟨rfl, rfl, (Host.Outcome.next.inj h).symm⟩)
    | inFlight w =>
      rw [step_of_inFlight hr hc] at h
      exact .inr (.inr (.inl ⟨w, rfl, rfl, h⟩))
    | responding r =>
      rw [step_of_responding hr hc] at h
      exact .inr (.inr (.inr ⟨r, rfl, rfl, (Host.Outcome.next.inj h).symm⟩))

/-- A response is the same outcome on states that differ only in the channel. -/
theorem respond_congr {c : RspCode} {d : Byte} {s t : State} (h : s.setChannel .idle = t.setChannel .idle) :
    respond c d s = respond c d t := by
  have hc := congrArg (State.setChannel (.responding (responseWord c d))) h
  exact congrArg Host.Outcome.next hc

/-- A command does not look at the channel. -/
theorem exec_setChannel (i : Instr) (c : Channel) (s : State) : exec i (s.setChannel c) = exec i s := by
  cases i with
  | nop => rfl
  | keyClear => exact respond_congr (by simp only [State.setChannel, State.forgetK, State.setKeyLen])
  | keyPush b =>
    simp only [exec, execKeyPush]
    by_cases hk : s.keyLen.val < 256
    · rw [dif_pos hk, dif_pos (show (s.setChannel c).keyLen.val < 256 from hk)]
      exact respond_congr (by simp only [State.setChannel, State.setK, State.setKeyLen])
    · rw [dif_neg hk, dif_neg (show ¬(s.setChannel c).keyLen.val < 256 from hk)]
      rfl
  | schedule =>
    simp only [exec, execSchedule]
    by_cases hk : s.keyLen.val = 0
    · rw [if_pos hk, if_pos (show (s.setChannel c).keyLen.val = 0 from hk)]
      rfl
    · rw [if_neg hk, if_neg (show ¬(s.setChannel c).keyLen.val = 0 from hk)]
      exact respond_congr (by simp only [State.setChannel, State.setS, State.setCursors, State.setValid])
  | xform d =>
    have hb : keystreamByte (s.setChannel c) = keystreamByte s := rfl
    simp only [exec, execXform, hb]
    by_cases hv : s.valid = true
    · rw [if_pos hv, if_pos (show (s.setChannel c).valid = true from hv)]
      exact respond_congr
        (by simp only [State.setChannel, State.setS, State.setCursors, advancedI, advancedJ, advancedS])
    · rw [if_neg hv, if_neg (show ¬(s.setChannel c).valid = true from hv)]
      rfl
  | readS a =>
    simp only [exec, execReadS]
    by_cases hv : s.valid = true
    · rw [if_pos hv, if_pos (show (s.setChannel c).valid = true from hv)]
      rfl
    · rw [if_neg hv, if_neg (show ¬(s.setChannel c).valid = true from hv)]
      rfl
  | readReg sel =>
    simp only [exec, execReadReg]
    split
    · rename_i r _
      cases r <;> rfl
    · rfl
  | endSession =>
    exact respond_congr (by simp only [State.setChannel, State.forgetS, State.setValid, State.setCursors])

/-- Carrying out a command word does not look at the channel. -/
theorem complete_setChannel (w : Word) (c : Channel) (s : State) : complete w (s.setChannel c) = complete w s := by
  cases h : decode w with
  | ok i => rw [complete_of_decode h, complete_of_decode h, exec_setChannel]
  | error r =>
    rw [complete_of_reject h, complete_of_reject h]
    rfl

@[simp] theorem run_zero (s : State) : core.run 0 s = .next s := rfl

/-- A run is its first step and the run after it. -/
theorem run_succ {s t : State} (h : step s = .next t) (n : Nat) : core.run (n + 1) s = core.run n t := by
  have hs : core.step s = .next t := h
  simp only [Host.Core.run, hs]

/-- A command word whose carrying out leaves the response `r` pending is a transaction with that response. -/
theorem transact_of_complete {w r : Word} {s t : State} (h : complete w s = .next t)
    (hc : t.channel = .responding r) : transact w s = some (deliver r t, r) := by
  simp only [transact, h, hc]

@[simp] theorem runWords_nil (s : State) : runWords [] s = some (s, []) := rfl

theorem runWords_cons {w r : Word} {ws : List Word} {s t : State} (h : transact w s = some (t, r)) :
    runWords (w :: ws) s = (runWords ws t).map fun p => (p.1, r :: p.2) := by
  simp only [runWords, h]
  cases runWords ws t <;> rfl

end Sys2Proof.Machine
end

