-- ==== Sys2Proof/Laws/Table.lean ====
section
/-! SUPPORT. The laws of the table operations: a read after a write, the swap, equality entry by entry. -/

namespace Sys2Proof.Machine

/-- Equal tables are equal data: a table is its 256 entries and nothing else. -/
theorem table_ext {t u : Table} (h : ∀ x : Byte, readEntry t x = readEntry u x) : t = u := by
  apply Vector.ext
  intro n hn
  have hx := h (BitVec.ofNat 8 n)
  simpa [readEntry, Nat.mod_eq_of_lt hn] using hx

/-- A read after a write gives the value written at that entry and the old one at every other. -/
theorem readEntry_writeEntry (t : Table) (x v y : Byte) :
    readEntry (writeEntry t x v) y = if y = x then v else readEntry t y := by
  unfold readEntry writeEntry
  rw [Vector.getElem_set]
  simp only [← BitVec.toNat_inj, eq_comm]

@[simp] theorem readEntry_writeEntry_same (t : Table) (x v : Byte) : readEntry (writeEntry t x v) x = v := by
  simp [readEntry_writeEntry]

@[simp] theorem readEntry_tableOf (f : Byte → Byte) (x : Byte) : readEntry (tableOf f) x = f x := by
  unfold readEntry tableOf
  rw [Vector.getElem_ofFn]
  simp

@[simp] theorem readEntry_identityTable (x : Byte) : readEntry identityTable x = x := by
  simp [identityTable]

/-- The swap exchanges two entries and leaves every other as it was. -/
theorem readEntry_swapEntries (t : Table) (a b y : Byte) :
    readEntry (swapEntries t a b) y =
      if y = b then readEntry t a else if y = a then readEntry t b else readEntry t y := by
  simp only [swapEntries, readEntry_writeEntry]

@[simp] theorem readEntry_swapEntries_right (t : Table) (a b : Byte) :
    readEntry (swapEntries t a b) b = readEntry t a := by
  simp [readEntry_swapEntries]

@[simp] theorem readEntry_swapEntries_left (t : Table) (a b : Byte) :
    readEntry (swapEntries t a b) a = readEntry t b := by
  rw [readEntry_swapEntries]
  split <;> simp_all

/-- "when `a = b` it leaves `S` unchanged" (00_scope.md R11). -/
@[simp] theorem swapEntries_self (t : Table) (a : Byte) : swapEntries t a a = t := by
  apply table_ext
  intro y
  rw [readEntry_swapEntries]
  split <;> simp_all

/-- One more iteration of the key schedule. -/
theorem ksaAfter_succ (K : Table) (L k : Nat) : ksaAfter K L (k + 1) = ksaIteration K L (ksaAfter K L k) k := by
  simp [ksaAfter, List.range_succ]

@[simp] theorem ksaAfter_zero (K : Table) (L : Nat) : ksaAfter K L 0 = (identityTable, 0x00) := rfl

end Sys2Proof.Machine
end

