-- ==== Sys2Proof/Tests/Slice0.lean ====
section
/-! SUPPORT. The model's own tests, each expected value from the spec and named there, and a witness for the hypotheses
of every statement. -/

open Sys2Proof Sys2Proof.Machine

namespace Sys2Proof.Tests

/-- The state an outcome holds; a state no test meets where it holds none. -/
def after (o : Host.Outcome State Fault Refusal) : State :=
  match o with
  | .next t => t
  | .fault _ => State.reset
  | .refused _ => State.reset

/-- A state with the first three key bytes stored. -/
def keyed : State :=
  { State.reset with
    K := writeEntry (writeEntry (writeEntry (tableOf fun _ => 0) 0 0x4B) 1 0x65) 2 0x79
    keyLen := 3 }

/-- A session over the identity table. -/
def live : State := { State.reset with S := identityTable, valid := true, keyLen := 3, j := 1 }

/-! Checks on words and on assembly: an ill-formed term for each. -/

theorem test_wellFormed_all_commands : Instr.wellFormed (.readReg 0xFF) = true := by decide

/-- 30_encoding.md R84. -/
theorem test_definedOpcode_refuses_reserved : definedOpcode 0x0800 = false := by decide

/-- 30_encoding.md R86. -/
theorem test_ignoredOperandZero_refuses_operand : ignoredOperandZero 0x03A5 = false := by decide

/-- 30_encoding.md R75. -/
theorem test_canonicalWord_refuses : canonicalWord 0x0001 = false ∧ canonicalWord 0xFF00 = false := by decide

/-- 30_encoding.md R87: "A byte operand out of 0..255 is an assembler error". -/
theorem test_assembler_refuses_byte : parseLine "KEY_PUSH 256".toList = .error .badByte := by decide +kernel

/-- 30_encoding.md R87: "Mnemonics are upper case". -/
theorem test_assembler_refuses_mnemonic : parseLine "nop".toList = .error .unknownMnemonic := by decide +kernel

/-- 30_encoding.md R87: "mnemonic then at most one operand". -/
theorem test_assembler_refuses_operands : parseLine "XFORM 1 2".toList = .error .operandCount := by decide +kernel

theorem test_assembler_refuses_open_text : parseLine "KEY \"Key".toList = .error .badText := by decide +kernel

/-- Lines of 30_encoding.md R87 and R88. -/
theorem test_assembler_lines :
    parseLine "KEY_PUSH 'K' ; a key byte".toList = .ok (.command (.keyPush 0x4B)) ∧
    parseLine "READ_REG KEYLEN_HI".toList = .ok (.command (.readReg 0x04)) ∧
    parseLine "KEY \"Key\"".toList = .ok (.key [0x4B, 0x65, 0x79]) ∧
    parseLine "XFORMS 0x10, 33".toList = .ok (.xforms [0x10, 0x21]) ∧
    parseLine "; nothing".toList = .ok .blank := by decide +kernel

/-! Decoding: one word per command, from its pattern in 30_encoding.md R75. -/

theorem test_decode_nop : decode 0b0000000011111111 = .ok .nop := by decide
theorem test_decode_keyClear : decode 0b0000000100000000 = .ok .keyClear := by decide
theorem test_decode_keyPush : decode 0b0000001001111001 = .ok (.keyPush 0b01111001) := by decide
theorem test_decode_schedule : decode 0b0000001111111111 = .ok .schedule := by decide
theorem test_decode_xform : decode 0b0000010001101100 = .ok (.xform 0b01101100) := by decide
theorem test_decode_readS : decode 0b0000010101001011 = .ok (.readS 0b01001011) := by decide
theorem test_decode_readReg : decode 0b0000011000000010 = .ok (.readReg 0b00000010) := by decide
theorem test_decode_endSession : decode 0b0000011100000000 = .ok .endSession := by decide
theorem test_decode_reserved : decode 0b1000010000000001 = .error (.reservedOpcode 0x84) := by decide

/-- The table's numbering: the first word's bits 15..8 are the opcode. -/
theorem test_decodeTableWord : decodeTableWord 16 0x0450 = some (.xform 0x50) ∧ decodeTableWord 16 0x0800 = none ∧
    decodeTableWord 32 0x0450 = none := by decide

/-- 95_test_vectors.md, words of P1: the encoder. -/
theorem test_encode : encode .keyClear = 0x0100 ∧ encode (.keyPush 0x4B) = 0x024B ∧ encode .schedule = 0x0300 ∧
    encode (.xform 0x50) = 0x0450 ∧ encode (.readReg 0x02) = 0x0602 := by decide

/-! One step of each command, expected values from 95_test_vectors.md. -/

/-- V1: `0x00FF` -> `0x0000`, run as the first command after reset. -/
theorem test_nop_ignores_operand : (after (step (State.reset.withFetchWord 16 0x00FF))).channel = .responding 0x0000 := by
  decide

/-- V2: `key_len = 3`, `0x0100` -> `0x0000`, `key_len = 0`, STATUS 0x04. -/
theorem test_keyClear : (after (exec .keyClear keyed)).channel = .responding 0x0000 ∧
    (after (exec .keyClear keyed)).keyLen.val = 0 ∧ statusByte (after (exec .keyClear keyed)) = 0x04 := by decide

/-- V2: from reset `0x024B` -> `0x0000`, `K[0] = 0x4B`, `key_len = 1`. -/
theorem test_keyPush_first : (after (exec (.keyPush 0x4B) State.reset)).keyLen.val = 1 ∧
    readEntry (after (exec (.keyPush 0x4B) State.reset)).K 0x00 = 0x4B := by decide +kernel

/-- V2: `key_len = 256`, `0x02AA` -> `0x0000`, the byte dropped, STATUS 0x02. -/
theorem test_keyPush_full :
    readEntry (after (exec (.keyPush 0xAA) { keyed with keyLen := 256 })).K 0xFF = 0x00 ∧
    statusByte (after (exec (.keyPush 0xAA) { keyed with keyLen := 256 })) = 0x02 := by decide +kernel

/-- V3: S[0..7] after SCHEDULE with key "Key". -/
theorem test_schedule_key : [0, 1, 2, 3, 4, 5, 6, 7].map (readEntry (after (exec .schedule keyed)).S) =
    [0x4B, 0x33, 0x84, 0x9D, 0xC0, 0xC8, 0x1D, 0xA8] := by decide +kernel

/-- V12: `key_len = 0`, `0x0300` -> `0x0100`. -/
theorem test_schedule_empty : (after (exec .schedule State.reset)).channel = .responding 0x0100 := by decide

/-- V5, row 0: `S[1] = 51`, `S[51] = 78`, `S[129] = 0xEB`; `0x0450` -> `0x00BB`, `i = 1`, `j = 51`. -/
theorem test_xform_first :
    let s := { live with j := 0, S := writeEntry (writeEntry (writeEntry identityTable 1 51) 51 78) 129 0xEB }
    (after (exec (.xform 0x50) s)).channel = .responding 0x00BB ∧ (after (exec (.xform 0x50) s)).i = 1 ∧
      (after (exec (.xform 0x50) s)).j = 51 ∧ readEntry (after (exec (.xform 0x50) s)).S 1 = 78 := by decide +kernel

/-- V10, step 3: `i = 3`, `j = 101`, `S[3] = 126`, `S[101] = 133`, `t = i`: `k` read after the swap, `0x0085`. -/
theorem test_xform_read_after_swap :
    let s := { live with i := 2, j := 231, S := writeEntry (writeEntry identityTable 3 126) 101 133 }
    (after (exec (.xform 0x00) s)).channel = .responding 0x0085 := by decide +kernel

/-- V1: READ_S without a session, `0x0500` -> `0x0200`. -/
theorem test_readS_refused : (after (exec (.readS 0x00) State.reset)).channel = .responding 0x0200 := by decide

/-- V15: `S[75] = 83`, `0x054B` -> `0x0053`. -/
theorem test_readS : (after (exec (.readS 0x4B) { live with S := writeEntry identityTable 75 83 })).channel =
    .responding 0x0053 := by decide +kernel

/-- V15: STATUS with the key cleared after SCHEDULE is 0x05. -/
theorem test_readReg_status : (after (exec (.readReg 0x00) { live with keyLen := 0 })).channel = .responding 0x0005 := by
  decide

/-- V2: `key_len = 256`, `0x0603`, `0x0604` -> `0x0000`, `0x0001`. -/
theorem test_readReg_keyLen : (after (exec (.readReg 0x03) { live with keyLen := 256 })).channel = .responding 0x0000 ∧
    (after (exec (.readReg 0x04) { live with keyLen := 256 })).channel = .responding 0x0001 := by decide

/-- V16: END of a live session with `i = 9`, `j = 222`. -/
theorem test_endSession : (after (exec .endSession { live with i := 9, j := 222 })).i = 0 ∧
    (after (exec .endSession { live with i := 9, j := 222 })).j = 0 ∧
    statusByte (after (exec .endSession { live with i := 9, j := 222 })) = 0x00 := by decide

/-- V12: a reserved word, `0xFFFF` -> `0x0300`. -/
theorem test_reserved : (after (step (State.reset.withFetchWord 16 0xFFFF))).channel = .responding 0x0300 := by decide

/-! Witnesses: for each statement with hypotheses, terms that meet them. -/

/-- A state whose command `w` is in flight. -/
def running (w : Word) (s : State) : State := { s with channel := .inFlight w }

/-- A state whose host applies reset while a command is in flight. -/
def resetting : State := { running 0x0450 live with inputs := [.resetting] }

theorem witness_DecodeSelectsByOpcode : ∃ x y : Byte, x.toNat = 8 ∧ 8 ≤ y.toNat ∧ y.toNat = 255 :=
  ⟨0x08, 0xFF, by decide⟩

theorem witness_DecodeEncodeRoundTrip : ∃ i : Instr, i.wellFormed = true ∧ i = .xform 0xFF := ⟨_, rfl, rfl⟩

theorem witness_CanonicalWordsAreEncodings : decode 0x04FF = .ok (.xform 0xFF) ∧ decode 0x0001 = .ok .nop := by decide

theorem witness_ReservedOpcodesAnswered : ∃ opc : Byte, 8 ≤ opc.toNat ∧ opc = 0x08 := ⟨_, by decide, rfl⟩

theorem witness_ReservedOpcodesAnswered_accepts : ∃ (s : State) (opc opnd : Byte), 8 ≤ opc.toNat ∧ s.channel = .idle ∧
    s.input.reset = false ∧ s.input.command = some (opc ++ opnd) :=
  ⟨{ live with inputs := [.present 0xFF01] }, 0xFF, 0x01, by decide, rfl, rfl, rfl⟩

theorem witness_StepRunsDecodedCommand_command : ∃ (s : State) (w : Word) (i : Instr), s.channel = .inFlight w ∧
    s.input.reset = false ∧ decode w = .ok i ∧ i.wellFormed = true :=
  ⟨running 0x0450 live, 0x0450, .xform 0x50, rfl, rfl, by decide, rfl⟩

theorem witness_StepRunsDecodedCommand_reserved : ∃ (s : State) (opc opnd : Byte),
    s.channel = .inFlight (opc ++ opnd) ∧ s.input.reset = false ∧ 8 ≤ opc.toNat :=
  ⟨running 0x0800 live, 0x08, 0x00, rfl, rfl, by decide⟩

theorem witness_StepRunsDecodedCommand_placed : ∃ (w : Word) (i : Instr), decode w = .ok i :=
  ⟨0x07FF, .endSession, by decide⟩

theorem witness_Handshake_waits : ∃ s : State, s.input.reset = false ∧ s.channel = .idle ∧ s.input.command = none :=
  ⟨State.reset, rfl, rfl, rfl⟩

theorem witness_Handshake_accepts : ∃ (s : State) (w : Word), s.input.reset = false ∧ s.channel = .idle ∧
    s.input.command = some w :=
  ⟨{ State.reset with inputs := [.present 0x0100] }, 0x0100, rfl, rfl, rfl⟩

theorem witness_Handshake_answers : ∃ (s : State) (w : Word), s.input.reset = false ∧ s.channel = .inFlight w :=
  ⟨{ running 0xFFFF live with inputs := [.present 0x0100] }, 0xFFFF, rfl, rfl⟩

theorem witness_Handshake_holds : ∃ (s : State) (r : Word), s.input.reset = false ∧ s.channel = .responding r ∧
    s.input.take = false :=
  ⟨{ live with channel := .responding 0x00BB, inputs := [.present 0x0100] }, 0x00BB, rfl, rfl, rfl⟩

theorem witness_Handshake_delivers : ∃ (s : State) (r : Word), s.input.reset = false ∧ s.channel = .responding r ∧
    s.input.take = true :=
  ⟨{ live with channel := .responding 0x00BB, inputs := [.taking] }, 0x00BB, rfl, rfl, rfl⟩

theorem witness_ResetEventState : resetting.input.reset = true ∧ resetting.valid = true := by decide

theorem witness_ResetEventKeepsHostRecord : ∃ s : State, s.input.reset = true ∧ s.input.take = true ∧
    s.channel = .responding 0x00BB :=
  ⟨{ live with channel := .responding 0x00BB, inputs := [⟨true, some 0x0100, true⟩] }, rfl, rfl, rfl⟩

theorem witness_KeyPushResult_below : ∃ s : State, s.keyLen.val < 256 ∧ s.keyLen.val = 255 :=
  ⟨{ keyed with keyLen := 255 }, by decide⟩

theorem witness_KeyPushResult_full : ∃ s : State, s.keyLen.val = 256 := ⟨{ keyed with keyLen := 256 }, by decide⟩

theorem witness_KeyPushResult_flags : ∃ s t : State, exec (.keyPush 0xAA) s = .next t ∧ s.keyLen.val = 256 :=
  ⟨{ keyed with keyLen := 256 }, _, rfl, by decide⟩

theorem witness_ScheduleResult_key : ∃ s t : State, s.keyLen.val ≠ 0 ∧ s.keyLen.val = 1 ∧ t.keyLen.val ≠ 0 ∧
    t.keyLen.val = 256 :=
  ⟨{ keyed with keyLen := 1 }, { keyed with keyLen := 256 }, by decide⟩

theorem witness_ScheduleResult_empty : State.reset.keyLen.val = 0 := rfl

theorem witness_RefusedScheduleKeepsSession : ∃ s : State, s.keyLen.val = 0 ∧ s.valid = true :=
  ⟨{ live with keyLen := 0 }, rfl, rfl⟩

theorem witness_ScheduleProperties : ∃ s u : State, s.keyLen.val ≠ 0 ∧ s.keyLen = u.keyLen ∧
    (∀ x : Byte, x.toNat < s.keyLen.val → readEntry s.K x = readEntry u.K x) ∧ s.valid ≠ u.valid ∧
    readEntry s.K 3 ≠ readEntry u.K 3 := by
  refine ⟨keyed, { keyed with K := writeEntry keyed.K 3 0xFF, valid := true }, by decide, rfl, ?_, by decide, by decide +kernel⟩
  intro x hx
  have hne : x ≠ 3 := by
    rintro rfl
    exact absurd hx (by decide)
  exact (readEntry_writeEntry keyed.K 3 0xFF x ▸ (if_neg hne).symm)

theorem witness_ScheduleIsIdempotent : ∃ t : State, exec .schedule State.reset = .next t := ⟨_, rfl⟩

theorem witness_KeysOfEveryLengthScheduled : ([0x00] : List Byte) ≠ [] ∧ List.replicate 300 (0xAA : Byte) ≠ [] := by
  decide

theorem witness_XformResult : live.valid = true ∧ State.reset.valid = false := ⟨rfl, rfl⟩

theorem witness_RefusedXformChangesNothing : State.reset.valid = false := rfl

theorem witness_KeystreamIndependentOfData : live.valid = true := rfl

theorem witness_KeystreamReadAfterSwap : ∃ (s : State) (i j t : Byte), s.valid = true ∧ i = s.i + 1 ∧
    j = s.j + readEntry s.S i ∧ t = readEntry s.S i + readEntry s.S j ∧ t = i ∧ i ≠ j := by
  refine ⟨{ live with i := 2, j := 231, S := writeEntry (writeEntry identityTable 3 126) 101 133 }, 3, 101, 3, rfl, ?_⟩
  decide +kernel

theorem witness_CursorCountsXforms : keyed.keyLen.val ≠ 0 := by decide

theorem witness_TransformMatchesDocument : ∃ (s : State) (c : DocCipher), s.valid = true ∧ MatchesDocument s c :=
  ⟨live, ⟨fun x => x, 0, 1⟩, rfl, fun x => congrArg BitVec.toNat (readEntry_identityTable x), rfl, rfl⟩

theorem witness_EncryptionRoundTrip : ([0x4B, 0x65, 0x79] : List Byte) ≠ [] := by decide

theorem witness_SkipRegionPolicy : ([0x50, 0x6C, 0x61] : List Byte).length < 4 ∧ ([0x4B] : List Byte) ≠ [] ∧
    3 ≤ ([0x50, 0x6C, 0x61] : List Byte).length := by decide

theorem witness_ReadSResult : live.valid = true ∧ State.reset.valid = false := ⟨rfl, rfl⟩

theorem witness_DumpShowsPermutation : live.valid = true ∧ IsPermutation live.S :=
  ⟨rfl, fun v => ⟨v, readEntry_identityTable v, fun y h => (readEntry_identityTable y).symm.trans h⟩⟩

/-- The hypotheses of the last clauses of ReadRegResult and EndResult. -/
theorem witness_no_session : Inv State.reset ∧ State.reset.valid = false :=
  ⟨⟨fun h => absurd h (by decide), fun _ => ⟨rfl, rfl⟩, fun _ h => absurd h (by simp [State.reset]),
    fun _ h => absurd h List.not_mem_nil⟩, rfl⟩

theorem witness_ReadRegResult : 5 ≤ (0x05 : Byte).toNat ∧ 5 ≤ (0xFF : Byte).toNat := by decide

theorem witness_RefusalsRightAfterReset : (0x00 : Byte).toNat < 5 ∧ (0x04 : Byte).toNat < 5 := by decide

theorem witness_FailedCommandWritesNothing : responseCode 0x0300 ≠ 0 ∧
    (after (complete 0x0800 live)).channel = .responding 0x0300 := by decide

theorem witness_RetryFailsAgain : ∃ s t : State, ∃ w r : Word, complete w s = .next t ∧ t.channel = .responding r ∧
    responseCode r ≠ 0 :=
  ⟨State.reset, _, 0x0300, 0x0100, rfl, rfl, by decide⟩

theorem witness_StepKeepsInvariant : ∃ s t : State, Inv s ∧ step s = .next t ∧ s.valid = true := by
  refine ⟨live, _, ⟨fun _ => witness_DumpShowsPermutation.2, fun h => absurd h (by decide),
    fun r h => absurd h (by simp [live, State.reset]), fun r h => absurd h List.not_mem_nil⟩,
    step_of_idle rfl rfl, rfl⟩

theorem witness_ValidChangesOnlyBy_begins : ∃ s t : State, step s = .next t ∧ t.valid ≠ s.valid ∧ s.valid = false := by
  refine ⟨running 0x0300 keyed, after (exec .schedule (running 0x0300 keyed).popInput),
    (step_of_inFlight (w := 0x0300) rfl rfl).trans ((complete_of_decode (w := 0x0300) (i := .schedule) (by decide) _).trans ?_), by decide, rfl⟩
  rw [exec, execSchedule, if_neg (by decide)]
  simp only [respond_eq, after]

theorem witness_ValidChangesOnlyBy_ends : ∃ s t : State, step s = .next t ∧ t.valid ≠ s.valid ∧ s.valid = true :=
  ⟨running 0x0700 live, after (exec .endSession (running 0x0700 live).popInput),
    (step_of_inFlight (w := 0x0700) rfl rfl).trans (complete_of_decode (w := 0x0700) (i := .endSession) (by decide) _), by decide, rfl⟩

theorem witness_ValidChangesOnlyBy_reset : ∃ s t : State, step s = .next t ∧ t.valid ≠ s.valid ∧ s.input.reset = true :=
  ⟨resetting, _, step_of_reset rfl, by decide, rfl⟩

theorem witness_xform_step : ∃ s t : State, step s = .next t ∧ t.S ≠ s.S ∧ t.i ≠ s.i ∧ t.j ≠ s.j := by
  refine ⟨running 0x0400 live, after (exec (.xform 0x00) (running 0x0400 live).popInput),
    (step_of_inFlight (w := 0x0400) rfl rfl).trans ((complete_of_decode (w := 0x0400) (i := .xform 0x00) (by decide) _).trans ?_), ?_, ?_⟩
  · rw [exec, execXform, if_pos (by decide)]
    simp only [respond_eq, after]
  · intro h
    have h1 := congrArg (fun p => readEntry p 1) h
    exact absurd h1 (by decide +kernel)
  · decide +kernel

/-- The hypotheses of PermutationStateWrittenOnlyBy. -/
theorem witness_PermutationStateWrittenOnlyBy : ∃ s t : State, step s = .next t ∧ t.S ≠ s.S := by
  obtain ⟨s, t, h, hS, _⟩ := witness_xform_step
  exact ⟨s, t, h, hS⟩

theorem witness_KeyStoreWrittenOnlyBy : ∃ s t : State, step s = .next t ∧ (t.K ≠ s.K ∨ t.keyLen ≠ s.keyLen) ∧
    s.channel = .inFlight 0x0100 :=
  ⟨running 0x0100 keyed, after (exec .keyClear (running 0x0100 keyed).popInput),
    (step_of_inFlight (w := 0x0100) rfl rfl).trans (complete_of_decode (w := 0x0100) (i := .keyClear) (by decide) _), .inr (by decide), rfl⟩

theorem witness_CursorsWrittenOnlyBy_runs : ∃ s t : State, step s = .next t ∧ (t.i ≠ s.i ∨ t.j ≠ s.j) := by
  obtain ⟨s, t, h, _, hi, _⟩ := witness_xform_step
  exact ⟨s, t, h, .inl hi⟩

theorem witness_CursorsWrittenOnlyBy_zeroes : ∃ s t : State, step s = .next t ∧ (t.i ≠ s.i ∨ t.j ≠ s.j) ∧
    s.channel = .inFlight 0x0700 :=
  ⟨running 0x0700 live, after (exec .endSession (running 0x0700 live).popInput),
    (step_of_inFlight (w := 0x0700) rfl rfl).trans (complete_of_decode (w := 0x0700) (i := .endSession) (by decide) _), .inr (by decide), rfl⟩

theorem witness_UnspecifiedStorageUnobservable : ∃ s t : State, Indistinguishable s t ∧ s.S ≠ t.S := by
  refine ⟨{ State.reset with S := identityTable }, { State.reset with S := writeEntry identityTable 0 1 },
    ⟨rfl, rfl, rfl, rfl, rfl, rfl, rfl, fun _ _ => rfl, fun h => absurd h (by decide)⟩, ?_⟩
  intro h
  exact absurd (congrArg (fun p => readEntry p 0) h) (by decide +kernel)

theorem witness_KeyStoreNeverReturned : Instr.readS 0x00 ≠ .schedule := by decide

theorem witness_StepsRefineCommandSequence : State.reset.channel = .idle ∧ State.reset.inputs = [] := ⟨rfl, rfl⟩

theorem witness_AnyHostDrivesCommandsInOrder : ∃ s : State, s.channel = .idle ∧
    (∀ inp ∈ s.inputs, inp.reset = false) ∧ s.inputs.filterMap HostInput.command = [0x0100, 0x0300] :=
  ⟨{ State.reset with inputs := [.present 0x0100, .quiet, .taking, .present 0x0300] }, rfl, by decide, by decide⟩

theorem witness_AssemblerEmitsCanonicalWords : assemble ["KEYSTREAM", "END ; done"] = .ok [0x0400, 0x0700] := by
  decide +kernel

end Sys2Proof.Tests
end

section
/-! SUPPORT. The bits of STATUS, and when SCHEDULE refuses (10_state.md R35, R36). -/

namespace Sys2Proof.Machine

theorem statusByte_bit_valid (s : State) : (statusByte s).getLsbD 0 = s.valid := by
  simp only [statusByte, BitVec.getLsbD_append]
  simp

theorem statusByte_bit_keyFull (s : State) : (statusByte s).getLsbD 1 = keyFull s := by
  simp only [statusByte, BitVec.getLsbD_append]
  simp

theorem statusByte_bit_keyEmpty (s : State) : (statusByte s).getLsbD 2 = keyEmpty s := by
  simp only [statusByte, BitVec.getLsbD_append]
  simp

theorem statusByte_reserved (s : State) : (statusByte s).extractLsb' 3 5 = 0 := by
  ext i hi
  have : ¬ (3 + i < 1) ∧ ¬ (3 + i - 1 < 1) ∧ ¬ (3 + i - 1 - 1 < 1) := by omega
  simp only [statusByte, BitVec.getElem_extractLsb', BitVec.getLsbD_append]
  simp [this]

theorem statusByte_reset : statusByte State.reset = 0x04 := rfl

/-- SCHEDULE without a key writes nothing and answers INVALID_KEY (40_key_schedule.md R111). -/
theorem execSchedule_of_keyLen_eq_zero {s : State} (h : s.keyLen.val = 0) :
    execSchedule s = .next (s.setChannel (.responding 0x0100)) := by
  rw [execSchedule, if_pos h, raise_eq, responseWord_invalidKey]

/-- SCHEDULE with a key answers OK after it has built the session (40_key_schedule.md R106). -/
theorem execSchedule_of_keyLen_ne_zero {s : State} (h : s.keyLen.val ≠ 0) :
    execSchedule s = .next
      ((((s.setS (scheduledTable s.K s.keyLen.val)).setCursors 0x00 0x00).setValid true).setChannel
        (.responding 0x0000)) := by
  rw [execSchedule, if_neg h, respond_eq, responseWord_ok_zero]

/-- SCHEDULE refuses exactly without a key: with one, its response is another word. -/
theorem execSchedule_refuses_iff (s : State) :
    execSchedule s = .next (s.setChannel (.responding 0x0100)) ↔ s.keyLen.val = 0 := by
  refine ⟨fun href => ?_, execSchedule_of_keyLen_eq_zero⟩
  by_contra hkey
  rw [execSchedule_of_keyLen_ne_zero hkey] at href
  have hchan := congrArg State.channel (Host.Outcome.next.inj href)
  simp at hchan

end Sys2Proof.Machine
end

section
/-! The statements about the state after reset and about STATUS. -/

namespace Sys2Proof.Machine

/-- Settles O11: the items by the definition of the reset state, STATUS by its value there. -/
theorem powerUpState : Obligations.PowerUpState :=
  ⟨rfl, rfl, rfl, rfl, rfl, statusByte_reset, rfl, rfl, rfl, rfl⟩

/-- Settles O33: STATUS bit by bit; bit 2 and the refusal of SCHEDULE both say `key_len = 0`. -/
theorem statusFields : Obligations.StatusFields := by
  intro s
  have hEmpty : (statusByte s).getLsbD 2 = true ↔ s.keyLen.val = 0 := by
    rw [statusByte_bit_keyEmpty, keyEmpty_iff]
  have hFull : (statusByte s).getLsbD 1 = true ↔ s.keyLen.val = 256 := by
    rw [statusByte_bit_keyFull, keyFull_iff]
  exact ⟨statusByte_bit_valid s, hFull, hEmpty, statusByte_reserved s,
    hEmpty.trans (execSchedule_refuses_iff s).symm, statusByte_reset⟩

end Sys2Proof.Machine
end

section
/-! SUPPORT. The decoder on a word given by its fields (30_encoding.md R74, R84, R86), and what `complete` takes from it. -/

namespace Sys2Proof

/-- The command with its operand replaced; the four commands that ignore their operand carry none (R86). -/
def Instr.withOperand (opnd : Byte) : Instr → Instr
  | .nop => .nop
  | .keyClear => .keyClear
  | .keyPush _ => .keyPush opnd
  | .schedule => .schedule
  | .xform _ => .xform opnd
  | .readS _ => .readS opnd
  | .readReg _ => .readReg opnd
  | .endSession => .endSession

@[simp] theorem withOperand_operand (i : Instr) : i.withOperand i.operand = i := by
  cases i <;> rfl

/-- A word with the opcode of a command decodes to that command with the word's operand. -/
theorem decode_opcode_operand (i : Instr) (opnd : Byte) :
    decode (commandWord i.opcode opnd) = .ok (i.withOperand opnd) := by
  rw [decode, opcodeOf_commandWord, operandOf_commandWord]
  cases i <;> rfl

/-- A word with an opcode from 0x08 on decodes to no command, whatever its operand (R84). -/
theorem decode_reservedOpcode {opc : Byte} (h : 8 ≤ opc.toNat) (opnd : Byte) :
    decode (commandWord opc opnd) = .error (.reservedOpcode opc) := by
  rw [decode, opcodeOf_commandWord]
  split
  case h_9 => rfl
  all_goals omega

/-- The canonical encoding decodes to the command it encodes (R75). -/
@[simp] theorem decode_encode (i : Instr) : decode (encode i) = .ok i := by
  rw [encode, decode_opcode_operand, withOperand_operand]

/-- A command that carries no operand is decoded from every operand as from its canonical word (R86). -/
theorem decode_eq_decode_encode {i : Instr} {opnd : Byte} (h : i.withOperand opnd = i) :
    decode (commandWord i.opcode opnd) = decode (encode i) := by
  rw [decode_opcode_operand, h, decode_encode]

/-- Carrying out a word uses nothing of the word but what it decodes to (R89). -/
theorem Machine.complete_congr {w w' : Word} (h : decode w = decode w') (s : Machine.State) :
    complete w s = complete w' s := by
  rw [complete, complete, h]

end Sys2Proof
end

section
/-! The statements about the decoding procedure and about ignored operands. -/

namespace Sys2Proof

/-- Settles O2: each of the eight opcodes is that of a command, and every other opcode is reserved. -/
theorem decodeSelectsByOpcode : Obligations.DecodeSelectsByOpcode := fun opnd =>
  ⟨decode_opcode_operand .nop opnd,
    decode_opcode_operand .keyClear opnd,
    decode_opcode_operand (.keyPush opnd) opnd,
    decode_opcode_operand .schedule opnd,
    decode_opcode_operand (.xform opnd) opnd,
    decode_opcode_operand (.readS opnd) opnd,
    decode_opcode_operand (.readReg opnd) opnd,
    decode_opcode_operand .endSession opnd,
    fun _ hReserved => decode_reservedOpcode hReserved opnd⟩

/-- Settles O5: the words decode alike, and a word acts only through what it decodes to. -/
theorem ignoredOperandsHaveNoEffect : Obligations.IgnoredOperandsHaveNoEffect := by
  intro opnd s
  have hNop : decode (0x00#8 ++ opnd) = decode 0x0000 := decode_eq_decode_encode (i := .nop) rfl
  have hKeyClear : decode (0x01#8 ++ opnd) = decode 0x0100 := decode_eq_decode_encode (i := .keyClear) rfl
  have hSchedule : decode (0x03#8 ++ opnd) = decode 0x0300 := decode_eq_decode_encode (i := .schedule) rfl
  have hEnd : decode (0x07#8 ++ opnd) = decode 0x0700 := decode_eq_decode_encode (i := .endSession) rfl
  exact ⟨Machine.complete_congr hNop s, Machine.complete_congr hKeyClear s,
    Machine.complete_congr hSchedule s, Machine.complete_congr hEnd s, hNop, hKeyClear, hSchedule, hEnd⟩

end Sys2Proof
end

section
/-! SUPPORT. What NOP, KEY_CLEAR and KEY_PUSH answer, and the stored key as a list (40_key_schedule.md R100 to R104). -/

namespace Sys2Proof.Machine

theorem execNop_eq (s : State) : execNop s = .next (s.setChannel (.responding 0x0000)) := by
  rw [execNop, respond_eq, responseWord_ok_zero]

theorem execKeyClear_eq (s : State) :
    execKeyClear s = .next ((s.forgetK.setKeyLen 0).setChannel (.responding 0x0000)) := by
  rw [execKeyClear, respond_eq, responseWord_ok_zero]

/-- The state with the key byte `b` appended to a store that is not full (R104). -/
def State.pushKey (b : Byte) (s : State) (h : s.keyLen.val < 256) : State :=
  (s.setK (writeEntry s.K (BitVec.ofNat 8 s.keyLen.val) b)).setKeyLen ⟨s.keyLen.val + 1, by omega⟩

theorem pushKey_K (b : Byte) {s : State} (h : s.keyLen.val < 256) :
    (s.pushKey b h).K = writeEntry s.K (BitVec.ofNat 8 s.keyLen.val) b := rfl

theorem pushKey_keyLen (b : Byte) {s : State} (h : s.keyLen.val < 256) :
    (s.pushKey b h).keyLen.val = s.keyLen.val + 1 := rfl

theorem execKeyPush_of_lt (b : Byte) {s : State} (h : s.keyLen.val < 256) :
    execKeyPush b s = .next ((s.pushKey b h).setChannel (.responding 0x0000)) := by
  rw [execKeyPush, dif_pos h, respond_eq, responseWord_ok_zero, State.pushKey]

/-- A full store drops the byte (R104, R109). -/
theorem execKeyPush_of_full (b : Byte) {s : State} (h : s.keyLen.val = 256) :
    execKeyPush b s = .next (s.setChannel (.responding 0x0000)) := by
  rw [execKeyPush, dif_neg (by omega), respond_eq, responseWord_ok_zero]

/-- `key_len` counts the stored bytes up to 256 (R29). -/
theorem keyLen_lt_or_full (s : State) : s.keyLen.val < 256 ∨ s.keyLen.val = 256 := by
  have := s.keyLen.isLt
  omega

/-- Below 256, `key_len` as an index of `K` names the entry of that number. -/
theorem eq_ofNat_keyLen_iff {s : State} (h : s.keyLen.val < 256) (x : Byte) :
    x = BitVec.ofNat 8 s.keyLen.val ↔ x.toNat = s.keyLen.val := by
  rw [← BitVec.toNat_inj, BitVec.toNat_ofNat, Nat.mod_eq_of_lt h]

@[simp] theorem storedKey_setChannel (c : Channel) (s : State) : storedKey (s.setChannel c) = storedKey s := rfl
@[simp] theorem storedKey_deliver (r : Word) (s : State) : storedKey (deliver r s) = storedKey s := rfl
@[simp] theorem storedKey_setKeyLen_zero (s : State) : storedKey (s.setKeyLen 0) = [] := rfl

@[simp] theorem length_storedKey (s : State) : (storedKey s).length = s.keyLen.val := by
  simp [storedKey]

theorem length_storedKey_le (s : State) : (storedKey s).length ≤ 256 := by
  have := s.keyLen.isLt
  rw [length_storedKey]
  omega

/-- Byte `n` of the stored key is entry `n` of `K` (R28). -/
theorem getD_storedKey {s : State} {n : Nat} (h : n < s.keyLen.val) :
    (storedKey s).getD n 0 = readEntry s.K (BitVec.ofNat 8 n) := by
  simp [storedKey, h]

/-- States whose key stores agree below the common `key_len` hold the same stored key. -/
theorem storedKey_congr {s u : State} (hlen : s.keyLen = u.keyLen)
    (hK : ∀ x : Byte, x.toNat < s.keyLen.val → readEntry s.K x = readEntry u.K x) : storedKey s = storedKey u := by
  rw [storedKey, storedKey, ← hlen]
  refine List.map_congr_left fun n hn => hK _ ?_
  have hmod : n % 2 ^ 8 ≤ n := Nat.mod_le _ _
  rw [BitVec.toNat_ofNat]
  exact hmod.trans_lt (List.mem_range.mp hn)

/-- The byte pushed onto a store that is not full stands after the bytes stored before. -/
theorem storedKey_pushKey (b : Byte) {s : State} (h : s.keyLen.val < 256) :
    storedKey (s.pushKey b h) = storedKey s ++ [b] := by
  rw [storedKey, pushKey_keyLen, pushKey_K, List.range_succ, List.map_append, List.map_singleton,
    readEntry_writeEntry_same, storedKey]
  congr 1
  refine List.map_congr_left fun n hn => ?_
  have hlt : n < s.keyLen.val := List.mem_range.mp hn
  have hne : ¬ (BitVec.ofNat 8 n).toNat = s.keyLen.val := by
    rw [BitVec.toNat_ofNat, Nat.mod_eq_of_lt (by omega)]
    omega
  rw [readEntry_writeEntry, if_neg (mt (eq_ofNat_keyLen_iff h _).mp hne)]

/-- KEY_PUSH appends its byte to the stored key and keeps the first 256 bytes of that (R104, R109). -/
theorem exists_execKeyPush (b : Byte) (s : State) : ∃ t, execKeyPush b s = .next t ∧
    t.channel = .responding 0x0000 ∧ storedKey t = (storedKey s ++ [b]).take 256 := by
  rcases keyLen_lt_or_full s with hlt | hfull
  · refine ⟨_, execKeyPush_of_lt b hlt, rfl, ?_⟩
    rw [storedKey_setChannel, storedKey_pushKey, List.take_of_length_le]
    simpa using hlt
  · refine ⟨_, execKeyPush_of_full b hfull, rfl, ?_⟩
    rw [storedKey_setChannel, List.take_left' ((length_storedKey s).trans hfull)]

/-- `key_len` counts the pushed byte too, up to 256 (R29, R104). -/
theorem keyLen_of_execKeyPush {b : Byte} {s t : State} (h : execKeyPush b s = .next t) :
    t.keyLen.val = min 256 (s.keyLen.val + 1) := by
  obtain ⟨u, hu, _, hkey⟩ := exists_execKeyPush b s
  obtain rfl := Host.Outcome.next.inj (h.symm.trans hu)
  rw [← length_storedKey, hkey, List.length_take, List.length_append, length_storedKey, List.length_singleton]

end Sys2Proof.Machine
end

section
/-! SUPPORT. The key schedule against the document's (40_key_schedule.md R106 to R109). -/

namespace Sys2Proof

open Machine

/-- A table of bytes and a table of natural numbers hold the same values. -/
def SameTable (t : Table) (state : Nat → Nat) : Prop :=
  ∀ x : Byte, (readEntry t x).toNat = state x.toNat

theorem sameTable_identityTable : SameTable identityTable (fun k => k) := fun x => by
  rw [readEntry_identityTable]

/-- The block's swap is the document's. -/
theorem SameTable.swapEntries {t : Table} {state : Nat → Nat} (h : SameTable t state) (a b : Byte) :
    SameTable (swapEntries t a b) (docSwap state a.toNat b.toNat) := by
  intro x
  rw [readEntry_swapEntries, docSwap]
  simp only [BitVec.toNat_inj]
  by_cases hb : x = b
  · by_cases ha : x = a
    · subst hb ha
      rw [if_pos rfl, if_pos rfl, h]
    · rw [if_pos hb, if_neg ha, if_pos hb, h]
  · by_cases ha : x = a
    · rw [if_neg hb, if_pos ha, if_pos ha, h]
    · rw [if_neg hb, if_neg ha, if_neg ha, if_neg hb, h]

/-- The key byte an iteration adds is that of the stored key taken cyclically (R107). -/
theorem keyByte_eq_getD_storedKey {s : State} (h : s.keyLen.val ≠ 0) (n : Nat) :
    keyByte s.K s.keyLen.val n = (storedKey s).getD (n % (storedKey s).length) 0 := by
  rw [length_storedKey, getD_storedKey (Nat.mod_lt _ (Nat.pos_of_ne_zero h)), keyByte]

/-- Iteration by iteration the block's table and running index are the document's (R106). -/
theorem ksaAfter_matches_docKeySchedule {s : State} (h : s.keyLen.val ≠ 0) {n : Nat} (hn : n ≤ 256) :
    SameTable (ksaAfter s.K s.keyLen.val n).1 (docKeySchedule (storedKey s) n).1 ∧
      (ksaAfter s.K s.keyLen.val n).2.toNat = (docKeySchedule (storedKey s) n).2 := by
  induction n with
  | zero => exact ⟨sameTable_identityTable, rfl⟩
  | succ n ih =>
    obtain ⟨hTable, hIndex⟩ := ih (by omega)
    have hnNat : (BitVec.ofNat 8 n).toNat = n := by
      rw [BitVec.toNat_ofNat, Nat.mod_eq_of_lt (by omega)]
    have hEntry := hTable (BitVec.ofNat 8 n)
    rw [hnNat] at hEntry
    have hNext : (ksaAfter s.K s.keyLen.val (n + 1)).2.toNat = (docKeySchedule (storedKey s) (n + 1)).2 := by
      rw [ksaAfter_succ, ksaIteration, docKeySchedule, BitVec.toNat_add, BitVec.toNat_add, Nat.mod_add_mod,
        hIndex, hEntry, keyByte_eq_getD_storedKey h]
    refine ⟨?_, hNext⟩
    have hSwap := hTable.swapEntries (BitVec.ofNat 8 n) (ksaAfter s.K s.keyLen.val (n + 1)).2
    rw [hnNat, hNext] at hSwap
    rw [ksaAfter_succ] at hSwap ⊢
    exact hSwap

/-- SCHEDULE builds the document's table of the stored key (R106). -/
theorem scheduledTable_matches_docSchedule {s : State} (h : s.keyLen.val ≠ 0) :
    SameTable (scheduledTable s.K s.keyLen.val) (docSchedule (storedKey s)) :=
  (ksaAfter_matches_docKeySchedule h le_rfl).1

/-- A table of natural numbers is that of at most one table of bytes. -/
theorem SameTable.unique {t u : Table} {state : Nat → Nat} (ht : SameTable t state) (hu : SameTable u state) :
    t = u :=
  table_ext fun x => BitVec.eq_of_toNat_eq ((ht x).trans (hu x).symm)

theorem isPermutation_iff_bijective (t : Table) : IsPermutation t ↔ Function.Bijective (readEntry t) :=
  (Function.bijective_iff_existsUnique (readEntry t)).symm

theorem isPermutation_identityTable : IsPermutation identityTable := by
  rw [isPermutation_iff_bijective, show readEntry identityTable = id from funext readEntry_identityTable]
  exact Function.bijective_id

/-- To read after a swap is to read before it at the exchanged index. -/
theorem readEntry_swapEntries_eq_comp (t : Table) (a b : Byte) :
    readEntry (swapEntries t a b) = readEntry t ∘ Equiv.swap b a := by
  funext x
  rw [readEntry_swapEntries, Function.comp_apply, Equiv.swap_apply_def]
  split_ifs <;> rfl

theorem IsPermutation.swapEntries {t : Table} (h : IsPermutation t) (a b : Byte) :
    IsPermutation (swapEntries t a b) := by
  rw [isPermutation_iff_bijective] at h ⊢
  rw [readEntry_swapEntries_eq_comp]
  exact h.comp (Equiv.swap b a).bijective

/-- Every iteration of the key schedule is a swap, so its table stays a permutation (R108). -/
theorem isPermutation_ksaAfter (K : Table) (L n : Nat) : IsPermutation (ksaAfter K L n).1 := by
  induction n with
  | zero => exact isPermutation_identityTable
  | succ n ih =>
    rw [ksaAfter_succ]
    exact ih.swapEntries _ _

theorem isPermutation_scheduledTable (K : Table) (L : Nat) : IsPermutation (scheduledTable K L) :=
  isPermutation_ksaAfter K L 256

/-- With a key, SCHEDULE starts a session on the document's table, which is a permutation, and writes nothing else
(R106, R108). -/
theorem Machine.exists_execSchedule {s : State} (h : s.keyLen.val ≠ 0) : ∃ p : Table,
    execSchedule s =
      .next { s with S := p, i := 0x00, j := 0x00, valid := true, channel := .responding 0x0000 } ∧
    SameTable p (docSchedule (storedKey s)) ∧ IsPermutation p := by
  have hTable := scheduledTable_matches_docSchedule h
  have hPerm := isPermutation_scheduledTable s.K s.keyLen.val
  have hExec := execSchedule_of_keyLen_ne_zero h
  generalize scheduledTable s.K s.keyLen.val = p at hTable hPerm hExec
  exact ⟨p, hExec, hTable, hPerm⟩

/-- The document's schedule reads of the key only the bytes that its iterations add. -/
theorem docKeySchedule_congr {key key' : List Byte} {n : Nat}
    (h : ∀ m < n, key.getD (m % key.length) 0 = key'.getD (m % key'.length) 0) :
    docKeySchedule key n = docKeySchedule key' n := by
  induction n with
  | zero => rfl
  | succ n ih =>
    rw [docKeySchedule, docKeySchedule, ih fun m hm => h m (by omega), h n (by omega)]

/-- 256 iterations read no key byte from index 256 on (R109). -/
theorem docSchedule_take (key : List Byte) : docSchedule (key.take 256) = docSchedule key := by
  rcases Nat.le_total key.length 256 with hshort | hlong
  · rw [List.take_of_length_le hshort]
  · refine congrArg Prod.fst (docKeySchedule_congr fun m hm => ?_)
    rw [List.length_take, Nat.min_eq_left hlong, Nat.mod_eq_of_lt hm, Nat.mod_eq_of_lt (hm.trans_le hlong)]
    simp [hm]

end Sys2Proof
end

section
/-! SUPPORT. Sequences of commands: what they answer and where they lead, and the host's key loading (R109, R160). -/

namespace Sys2Proof.Machine

/-- A command sent as its canonical word is a transaction with the response it leaves pending. -/
theorem transact_encode {i : Instr} {r : Word} {s t : State} (h : exec i s = .next t)
    (hc : t.channel = .responding r) : transact (encode i) s = some (deliver r t, r) :=
  transact_of_complete ((complete_of_decode (decode_encode i) s).trans h) hc

theorem runWords_cons_of_some {w r : Word} {ws rs : List Word} {s t u : State} (h : transact w s = some (t, r))
    (hs : runWords ws t = some (u, rs)) : runWords (w :: ws) s = some (u, r :: rs) := by
  rw [runWords_cons h, hs, Option.map_some]

theorem runWords_append_of_some {ws ws' rs rs' : List Word} {s t u : State} (h : runWords ws s = some (t, rs))
    (h' : runWords ws' t = some (u, rs')) : runWords (ws ++ ws') s = some (u, rs ++ rs') := by
  induction ws generalizing s rs with
  | nil =>
    obtain ⟨rfl, rfl⟩ := Prod.mk.inj (Option.some.inj h)
    exact h'
  | cons w ws ih =>
    rw [runWords] at h
    split at h
    · cases h
    · next t₁ r hw =>
      split at h
      · cases h
      · next t₂ rs₂ hws =>
        obtain ⟨rfl, rfl⟩ := Prod.mk.inj (Option.some.inj h)
        exact runWords_cons_of_some hw (ih hws)

theorem scheduleWords_eq (key : List Byte) :
    scheduleWords key = encode .keyClear :: (key.map (fun b => encode (.keyPush b)) ++ [encode .schedule]) := by
  simp [scheduleWords, AsmLine.expand, Function.comp_def]

/-- Bytes cut off before an append are cut off after it as well. -/
theorem take_take_append (n : Nat) (l m : List Byte) : (l.take n ++ m).take n = (l ++ m).take n := by
  rw [List.take_append, List.take_append, List.take_take, List.length_take]
  congr 2 <;> omega

/-- KEY_PUSH per byte appends the bytes to the stored key, as far as they fit (R109). -/
theorem exists_runWords_keyPush (bytes : List Byte) (s : State) : ∃ t,
    runWords (bytes.map fun b => encode (.keyPush b)) s = some (t, List.replicate bytes.length 0x0000) ∧
    storedKey t = (storedKey s ++ bytes).take 256 := by
  induction bytes generalizing s with
  | nil =>
    refine ⟨s, rfl, ?_⟩
    rw [List.append_nil, List.take_of_length_le (length_storedKey_le s)]
  | cons b bs ih =>
    obtain ⟨t, hexec, hchan, hkey⟩ := exists_execKeyPush b s
    obtain ⟨u, hrun, hstored⟩ := ih (deliver 0x0000 t)
    refine ⟨u, runWords_cons_of_some (transact_encode (i := .keyPush b) hexec hchan) hrun, ?_⟩
    rw [hstored, storedKey_deliver, hkey, take_take_append, List.append_assoc, List.singleton_append]

/-- KEY_CLEAR and KEY_PUSH per byte leave the first 256 key bytes stored (R109). -/
theorem exists_runWords_loadKey (key : List Byte) (s : State) : ∃ t,
    runWords (encode .keyClear :: key.map fun b => encode (.keyPush b)) s =
      some (t, List.replicate (key.length + 1) 0x0000) ∧
    storedKey t = key.take 256 := by
  obtain ⟨t, hrun, hstored⟩ :=
    exists_runWords_keyPush key (deliver 0x0000 ((s.forgetK.setKeyLen 0).setChannel (.responding 0x0000)))
  refine ⟨t, runWords_cons_of_some (transact_encode (i := .keyClear) (execKeyClear_eq s) rfl) hrun, ?_⟩
  rw [hstored, storedKey_deliver, storedKey_setChannel, storedKey_setKeyLen_zero, List.nil_append]

end Sys2Proof.Machine
end

section
/-! The statements about loading a key and scheduling it (40_key_schedule.md). -/

namespace Sys2Proof.Machine

/-- Settles O13: NOP is a response alone. -/
theorem nopResult : Obligations.NopResult :=
  ⟨execNop_eq, decode_opcode_operand .nop⟩

/-- Settles O14: KEY_CLEAR writes `key_len`, and `K` becomes unspecified; nothing else is written. -/
theorem keyClearResult : Obligations.KeyClearResult :=
  ⟨fun s => ⟨_, execKeyClear_eq s, rfl, rfl, rfl, rfl, rfl, rfl, rfl, rfl, rfl, rfl⟩,
    decode_opcode_operand .keyClear⟩

/-- Settles O15: a store that is not full takes the byte at index `key_len`, a full one drops it; the flags follow from
`key_len` after either. -/
theorem keyPushResult : Obligations.KeyPushResult := by
  refine ⟨fun b s hlt => ⟨_, execKeyPush_of_lt b hlt, fun x => ?_⟩, fun b s hfull => execKeyPush_of_full b hfull,
    fun b s t hexec => ?_, fun b => decode_opcode_operand (.keyPush b) b⟩
  · rw [pushKey_K, readEntry_writeEntry]
    simp only [eq_ofNat_keyLen_iff hlt]
  · have hlen := keyLen_of_execKeyPush hexec
    constructor
    · rw [← Bool.not_eq_true, keyEmpty_iff]
      omega
    · rw [keyFull_iff]
      omega

/-- Settles O16: the block's iterations follow the document's one by one. -/
theorem scheduleResult : Obligations.ScheduleResult := by
  refine ⟨fun s hkey => ?_, fun _ hempty => execSchedule_of_keyLen_eq_zero hempty, decode_opcode_operand .schedule⟩
  obtain ⟨p, hexec, hTable, _⟩ := exists_execSchedule hkey
  exact ⟨p, hexec, hTable⟩

/-- Settles O17: the refusal changes the channel alone, and no command looks at the channel. -/
theorem refusedScheduleKeepsSession : Obligations.RefusedScheduleKeepsSession := fun s hempty =>
  ⟨_, execSchedule_of_keyLen_eq_zero hempty, rfl, rfl, rfl, rfl, rfl, rfl, fun d => exec_setChannel (.xform d) _ s⟩

/-- Settles O18: every iteration is a swap, and the table is the document's of the stored key, which is the same for
both states. -/
theorem scheduleProperties : Obligations.ScheduleProperties := by
  refine ⟨fun s hkey => ?_, fun s u hkey hlen hK => ?_⟩
  · obtain ⟨p, hexec, _, hPerm⟩ := exists_execSchedule hkey
    exact ⟨_, hexec, hPerm, rfl, rfl, rfl⟩
  · obtain ⟨p, hexec, hTable, _⟩ := exists_execSchedule hkey
    obtain ⟨q, hexec', hTable', _⟩ := exists_execSchedule (s := u) (hlen ▸ hkey)
    rw [storedKey_congr hlen hK] at hTable
    exact ⟨_, _, hexec, hexec', hTable.unique hTable', rfl, rfl⟩

/-- Settles O20: the loading leaves the first 256 key bytes stored, and the document's 256 iterations read no others. -/
theorem keysOfEveryLengthScheduled : Obligations.KeysOfEveryLengthScheduled := by
  intro key s hne
  obtain ⟨t, hload, hstored⟩ := exists_runWords_loadKey key s
  have hlen : t.keyLen.val = min key.length 256 := by
    rw [← length_storedKey, hstored, List.length_take, Nat.min_comm]
  have hkey : t.keyLen.val ≠ 0 := by
    have := List.length_pos_iff.mpr hne
    omega
  obtain ⟨p, hexec, hTable, _⟩ := exists_execSchedule hkey
  rw [hstored, docSchedule_take] at hTable
  have hschedule := runWords_cons_of_some (transact_encode (i := .schedule) hexec rfl) (runWords_nil _)
  have hrun := runWords_append_of_some hload hschedule
  rw [List.cons_append, ← scheduleWords_eq, ← List.replicate_succ'] at hrun
  refine ⟨_, hrun, hlen, fun n hn => ?_, hTable, rfl, rfl, rfl⟩
  calc readEntry t.K (BitVec.ofNat 8 n)
    _ = (key.take 256).getD n 0 := by rw [← hstored, getD_storedKey (hlen ▸ hn)]
    _ = key.getD n 0 := by simp [show n < 256 by omega]

end Sys2Proof.Machine
end

section
/-! SUPPORT. What XFORM answers, and its table and keystream byte in terms of the table before the swap
(41_keystream.md R120, R123, R127). -/

namespace Sys2Proof.Machine

/-- XFORM in a session advances the cursors and the table, and answers OK with the data byte XOR the keystream byte
(R120). -/
theorem execXform_of_valid (d : Byte) {s : State} (h : s.valid = true) :
    execXform d s = .next
      (((s.setS (advancedS s)).setCursors (advancedI s) (advancedJ s)).setChannel
        (.responding (0x00#8 ++ (d ^^^ keystreamByte s)))) := by
  rw [execXform, if_pos h, respond_eq, responseWord_ok]

/-- XFORM without a session writes nothing and answers NOT_SCHEDULED (R127). -/
theorem execXform_of_not_valid (d : Byte) {s : State} (h : s.valid = false) :
    execXform d s = .next (s.setChannel (.responding 0x0200)) := by
  rw [execXform, if_neg (Bool.eq_false_iff.mp h), raise_eq, responseWord_notScheduled]

theorem advancedI_toNat (s : State) : (advancedI s).toNat = (s.i.toNat + 1) % 256 := by
  rw [advancedI, BitVec.toNat_add]
  rfl

theorem advancedJ_toNat (s : State) :
    (advancedJ s).toNat = (s.j.toNat + (readEntry s.S (advancedI s)).toNat) % 256 := by
  rw [advancedJ, BitVec.toNat_add]

theorem swapEntries_comm (t : Table) (a b : Byte) : swapEntries t a b = swapEntries t b a := by
  apply table_ext
  intro y
  by_cases ha : y = a
  · rw [ha, readEntry_swapEntries_left, readEntry_swapEntries_right]
  · simp only [readEntry_swapEntries, if_neg ha]

/-- The table after XFORM, entry by entry: what stood at the new cursors is exchanged (R120). -/
theorem readEntry_advancedS (s : State) (x : Byte) :
    readEntry (advancedS s) x =
      if x = advancedI s then readEntry s.S (advancedJ s)
      else if x = advancedJ s then readEntry s.S (advancedI s) else readEntry s.S x := by
  rw [advancedS, swapEntries_comm, readEntry_swapEntries]

/-- The two exchanged entries have the same sum after the swap as before it (R123). -/
theorem advancedS_sum_eq (s : State) :
    readEntry (advancedS s) (advancedI s) + readEntry (advancedS s) (advancedJ s) =
      readEntry s.S (advancedI s) + readEntry s.S (advancedJ s) := by
  rw [advancedS, readEntry_swapEntries_left, readEntry_swapEntries_right, BitVec.add_comm]

/-- The index of the keystream byte may be computed before the swap, the byte is read after it (R123). -/
theorem keystreamByte_eq_readEntry_advancedS (s : State) :
    keystreamByte s = readEntry (advancedS s) (readEntry s.S (advancedI s) + readEntry s.S (advancedJ s)) := by
  rw [keystreamByte, advancedS_sum_eq]

end Sys2Proof.Machine
end

section
/-! The statements about one XFORM (41_keystream.md). -/

namespace Sys2Proof.Machine

/-- Settles O22: the advanced cursors and table are the ones described, entry by entry; without a session only the
response is written. -/
theorem xformResult : Obligations.XformResult :=
  ⟨fun d s hvalid => ⟨advancedI s, advancedJ s, advancedS s, execXform_of_valid d hvalid, advancedI_toNat s,
      advancedJ_toNat s, readEntry_advancedS s⟩,
    fun d _ hvalid => execXform_of_not_valid d hvalid,
    fun d => decode_opcode_operand (.xform d) d⟩

/-- Settles O25: the swap keeps the sum `t`, so the keystream byte is entry `t` of the swapped table. -/
theorem keystreamReadAfterSwap : Obligations.KeystreamReadAfterSwap := by
  rintro s i j t hvalid rfl rfl rfl
  have hbyte := calc 0x00 ^^^ keystreamByte s
    _ = keystreamByte s := BitVec.zero_xor
    _ = readEntry (advancedS s) (readEntry s.S (advancedI s) + readEntry s.S (advancedJ s)) :=
      keystreamByte_eq_readEntry_advancedS s
    _ = _ := readEntry_advancedS s _
  exact ⟨_, execXform_of_valid 0x00 hvalid, advancedS_sum_eq s,
    congrArg (fun k : Byte => Channel.responding (0x00#8 ++ k)) hbyte⟩

/-- Settles O23: the refusal writes the channel alone, with the word of NOT_SCHEDULED. -/
theorem refusedXformChangesNothing : Obligations.RefusedXformChangesNothing := fun d _ hvalid =>
  ⟨_, _, execXform_of_not_valid d hvalid, rfl, rfl, rfl, rfl, rfl,
    responseData_responseWord (.error .notScheduled) 0x00⟩

end Sys2Proof.Machine
end

section
/-! SUPPORT. What READ_S, READ_REG and END answer (42_session_readback.md R140, R144, R148). -/

namespace Sys2Proof.Machine

/-- READ_S in a session answers OK with the entry and writes nothing (R140). -/
theorem execReadS_of_valid (a : Byte) {s : State} (h : s.valid = true) :
    execReadS a s = .next (s.setChannel (.responding (0x00#8 ++ readEntry s.S a))) := by
  rw [execReadS, if_pos h, respond_eq, responseWord_ok]

/-- READ_S without a session writes nothing and answers NOT_SCHEDULED (R140). -/
theorem execReadS_of_not_valid (a : Byte) {s : State} (h : s.valid = false) :
    execReadS a s = .next (s.setChannel (.responding 0x0200)) := by
  rw [execReadS, if_neg (Bool.eq_false_iff.mp h), raise_eq, responseWord_notScheduled]

/-- In a session the byte READ_S answers is the entry and no other. -/
theorem execReadS_answers_iff (a v : Byte) {s : State} (h : s.valid = true) :
    execReadS a s = .next (s.setChannel (.responding (0x00#8 ++ v))) ↔ readEntry s.S a = v := by
  rw [execReadS_of_valid a h]
  refine ⟨fun hanswer => ?_, fun hentry => by rw [hentry]⟩
  have hword := Channel.responding.inj (congrArg State.channel (Host.Outcome.next.inj hanswer))
  simpa only [← responseWord_ok, responseData_responseWord] using congrArg responseData hword

/-- READ_REG with the select of a register answers OK with that register and writes nothing (R144). -/
theorem execReadReg_of_selectReg {sel : Byte} {r : StatusReg} (h : selectReg sel = some r) (s : State) :
    execReadReg sel s = .next (s.setChannel (.responding (0x00#8 ++ readStatusReg r s))) := by
  simp only [execReadReg, h, respond_eq, responseWord_ok]

/-- READ_REG with a reserved select writes nothing and answers ILLEGAL_OPERAND (R144, R185). -/
theorem execReadReg_of_reserved {sel : Byte} (h : 5 ≤ sel.toNat) (s : State) :
    execReadReg sel s = .next (s.setChannel (.responding 0x0400)) := by
  simp only [execReadReg, (selectReg_eq_none_iff sel).mpr h, raise_eq, responseWord_illegalOperand]

/-- KEYLEN_LO is `key_len` modulo 256 (10_state.md R34). -/
theorem readStatusReg_keyLenLo (s : State) :
    readStatusReg .keyLenLo s = BitVec.ofNat 8 (s.keyLen.val % 256) := by
  apply BitVec.eq_of_toNat_eq
  simp only [readStatusReg, keyLenBits, BitVec.extractLsb'_toNat, BitVec.toNat_ofNat, Nat.shiftRight_zero]
  omega

/-- KEYLEN_HI is 1 exactly for a full key store (10_state.md R34). -/
theorem readStatusReg_keyLenHi (s : State) :
    readStatusReg .keyLenHi s = if s.keyLen.val = 256 then 0x01 else 0x00 := by
  rcases keyLen_lt_or_full s with hlt | hfull
  · rw [if_neg hlt.ne]
    apply BitVec.eq_of_toNat_eq
    simp only [readStatusReg, keyLenBits, BitVec.toNat_setWidth, BitVec.extractLsb'_toNat, BitVec.ofNat_eq_ofNat,
      BitVec.toNat_ofNat, Nat.shiftRight_eq_div_pow]
    omega
  · rw [if_pos hfull, readStatusReg, keyLenBits, hfull]
    rfl

/-- The state END leaves, before its response (R148). -/
def State.endSession (s : State) : State := (s.forgetS.setValid false).setCursors 0x00 0x00

/-- END always succeeds (R148). -/
theorem execEnd_eq (s : State) :
    execEnd s = .next (s.endSession.setChannel (.responding 0x0000)) := by
  rw [execEnd, respond_eq, responseWord_ok_zero, State.endSession]

/-- Without a session the cursors are 0x00 and `S` is unobservable, so END changes nothing a host can see (R148). -/
theorem indistinguishable_endSession {s : State} (hInv : Inv s) (hvalid : s.valid = false) (c : Channel) :
    Indistinguishable (s.setChannel c) (s.endSession.setChannel c) := by
  obtain ⟨hi, hj⟩ := hInv.cursors hvalid
  exact {
    i := hi
    j := hj
    valid := hvalid
    keyLen := rfl
    channel := rfl
    inputs := rfl
    delivered := rfl
    key := fun _ _ => rfl
    permutation := fun hsession => absurd (hvalid.symm.trans hsession) Bool.false_ne_true }

end Sys2Proof.Machine
end

section
/-! The statements about READ_S, READ_REG and END (42_session_readback.md). -/

namespace Sys2Proof.Machine

/-- Settles O30: READ_S answers the byte `v` exactly at the indices that hold `v`, and in a permutation there is one. -/
theorem readSResult : Obligations.ReadSResult := by
  refine ⟨fun a _ hvalid => execReadS_of_valid a hvalid, fun a _ hvalid => execReadS_of_not_valid a hvalid,
    fun v s hvalid hPerm => ?_, fun a => decode_opcode_operand (.readS a) a⟩
  obtain ⟨a, hentry, hunique⟩ := hPerm v
  exact ⟨a, (execReadS_answers_iff a v hvalid).mpr hentry,
    fun b hanswer => hunique b ((execReadS_answers_iff b v hvalid).mp hanswer)⟩

/-- Settles O32: each select reads its register; without a session the invariant makes the cursors 0x00. -/
theorem readRegResult : Obligations.ReadRegResult := by
  have hI : ∀ s, execReadReg 0x01 s = .next (s.setChannel (.responding (0x00#8 ++ s.i))) :=
    execReadReg_of_selectReg (r := .i) rfl
  have hJ : ∀ s, execReadReg 0x02 s = .next (s.setChannel (.responding (0x00#8 ++ s.j))) :=
    execReadReg_of_selectReg (r := .j) rfl
  refine ⟨fun s => ⟨execReadReg_of_selectReg (sel := 0x00) (r := .status) rfl s, hI s, hJ s, ?_, ?_,
      fun _ hreserved => execReadReg_of_reserved hreserved s⟩,
    fun s hInv hvalid => ?_, fun sel => decode_opcode_operand (.readReg sel) sel⟩
  · have hLo := execReadReg_of_selectReg (sel := 0x03) (r := .keyLenLo) rfl s
    rwa [readStatusReg_keyLenLo] at hLo
  · have hHi := execReadReg_of_selectReg (sel := 0x04) (r := .keyLenHi) rfl s
    rw [readStatusReg_keyLenHi] at hHi
    split_ifs at hHi ⊢ <;> exact hHi
  · obtain ⟨hi, hj⟩ := hInv.cursors hvalid
    have hIZero := hI s
    have hJZero := hJ s
    rw [hi] at hIZero
    rw [hj] at hJZero
    exact ⟨hIZero, hJZero⟩

/-- Settles O34: END leaves no session, which is what XFORM and READ_S refuse on. -/
theorem endResult : Obligations.EndResult :=
  ⟨fun s => ⟨_, execEnd_eq s, rfl, rfl, rfl, rfl, rfl, rfl, rfl, rfl,
      fun d => execXform_of_not_valid d rfl, fun a => execReadS_of_not_valid a rfl,
      fun hInv hvalid => indistinguishable_endSession hInv hvalid _⟩,
    decode_opcode_operand .endSession⟩

end Sys2Proof.Machine
end

section
/-! SUPPORT. XFORM against the document's section 4.2, one byte and then a whole buffer (41_keystream.md R120,
43_host_procedures.md R162), and the document's transform as a keystream (R125, R164). -/

namespace Sys2Proof

open Machine

/-- The state one XFORM leaves, before its response (R120). -/
def Machine.State.advance (s : State) : State := (s.setS (advancedS s)).setCursors (advancedI s) (advancedJ s)

@[simp] theorem Machine.advance_i (s : State) : s.advance.i = advancedI s := rfl
@[simp] theorem Machine.advance_j (s : State) : s.advance.j = advancedJ s := rfl
@[simp] theorem Machine.advance_S (s : State) : s.advance.S = advancedS s := rfl

/-- A matching block advances as the document's cipher does (R120). -/
theorem MatchesDocument.advance {s : State} {c : DocCipher} (h : MatchesDocument s c) :
    MatchesDocument s.advance (docNext c).1 := by
  obtain ⟨hTable, hi, hj⟩ := h
  have hI : (advancedI s).toNat = (docNext c).1.i := by
    rw [advancedI_toNat, hi, docNext]
  have hJ : (advancedJ s).toNat = (docNext c).1.j := by
    rw [advancedJ_toNat, hTable, hI, hj, docNext]
  have hSwap := SameTable.swapEntries hTable (advancedI s) (advancedJ s)
  rw [hI, hJ] at hSwap
  exact ⟨hSwap, hI, hJ⟩

/-- The keystream byte of a matching block is the document's (R120). -/
theorem MatchesDocument.keystreamByte_toNat {s : State} {c : DocCipher} (h : MatchesDocument s c) :
    (keystreamByte s).toNat = (docNext c).2 := by
  obtain ⟨hTable, hI, hJ⟩ := h.advance
  simp only [advance_S, advance_i, advance_j] at hTable hI hJ
  rw [keystreamByte, hTable, BitVec.toNat_add, hTable, hTable, hI, hJ]
  rfl

theorem length_docTransform (data : List Byte) (c : DocCipher) : (docTransform data c).2.length = data.length := by
  induction data generalizing c with
  | nil => rfl
  | cons d ds ih => rw [docTransform, List.length_cons, List.length_cons, ih]

theorem length_eq_of_docTransform {data out : List Byte} {c : DocCipher}
    (h : out.map BitVec.toNat = (docTransform data c).2) : out.length = data.length := by
  rw [← length_docTransform data c, ← h, List.length_map]

/-- The keystream depends on the cipher alone, so the second transform from the same cipher takes away what the first
has added (R125, R164). -/
theorem docTransform_twice {data out : List Byte} {c : DocCipher}
    (h : out.map BitVec.toNat = (docTransform data c).2) : (docTransform out c).2 = data.map BitVec.toNat := by
  induction data generalizing out c with
  | nil =>
    obtain rfl := List.map_eq_nil_iff.mp h
    rfl
  | cons d ds ih =>
    obtain ⟨o, os, rfl, hbyte, hrest⟩ := List.map_eq_cons_iff.mp h
    rw [docTransform, List.map_cons, ih hrest, hbyte, Nat.xor_xor_cancel_right]

/-- Bytes that transform to `out` are what `out` transforms to. -/
theorem eq_of_docTransform_twice {data out back : List Byte} {c : DocCipher}
    (h : out.map BitVec.toNat = (docTransform data c).2) (h' : back.map BitVec.toNat = (docTransform out c).2) :
    back = data :=
  List.map_injective_iff.mpr (fun _ _ => BitVec.eq_of_toNat_eq) (h'.trans (docTransform_twice h))

namespace Machine

theorem transformWords_eq (data : List Byte) : transformWords data = data.map fun d => encode (.xform d) := by
  simp [transformWords, AsmLine.expand, Function.comp_def]

/-- In a session XFORM is a transaction that answers OK with the data byte XOR the keystream byte, advances the cipher,
and keeps the session and the stored key (R120). -/
theorem exists_transact_xform (d : Byte) {s : State} {c : DocCipher} (hvalid : s.valid = true)
    (h : MatchesDocument s c) : ∃ t,
    transact (encode (.xform d)) s = some (t, responseWord .ok (d ^^^ keystreamByte s)) ∧
    MatchesDocument t (docNext c).1 ∧ t.valid = true ∧ storedKey t = storedKey s :=
  ⟨_, transact_encode (i := .xform d) (execXform_of_valid d hvalid) rfl, h.advance, hvalid, rfl⟩

/-- The XFORMs of a buffer answer OK with the bytes of the document's loop, lead to its cipher, and keep the session and
the stored key (R162). -/
theorem exists_runWords_transformWords (data : List Byte) {s : State} {c : DocCipher} (hvalid : s.valid = true)
    (h : MatchesDocument s c) : ∃ (t : State) (out : List Byte),
    runWords (transformWords data) s = some (t, out.map (responseWord .ok)) ∧
    out.map BitVec.toNat = (docTransform data c).2 ∧ MatchesDocument t (docTransform data c).1 ∧
    t.valid = true ∧ storedKey t = storedKey s := by
  simp only [transformWords_eq]
  induction data generalizing s c with
  | nil => exact ⟨s, [], rfl, rfl, h, hvalid, rfl⟩
  | cons d ds ih =>
    obtain ⟨t, hstep, hnext, hsession, hkey⟩ := exists_transact_xform d hvalid h
    obtain ⟨u, out, hrun, hbytes, hcipher, hsession', hkey'⟩ := ih hsession hnext
    refine ⟨u, (d ^^^ keystreamByte s) :: out, runWords_cons_of_some hstep hrun, ?_, hcipher, hsession',
      hkey'.trans hkey⟩
    rw [List.map_cons, hbytes, BitVec.toNat_xor, h.keystreamByte_toNat, docTransform]

end Machine

end Sys2Proof
end

section
/-! SUPPORT. The host procedures when every response is OK (43_host_procedures.md R160, R162, R164, R168). -/

namespace Sys2Proof.Machine

/-- An OK response as a number is its data byte (30_encoding.md R80). -/
@[simp] theorem responseWord_ok_toNat (d : Byte) : (responseWord .ok d).toNat = d.toNat := by
  rw [responseWord_ok, BitVec.toNat_append]
  simp

@[simp] theorem responseOk_responseWord_ok (d : Byte) : responseOk (responseWord .ok d) = true := by
  simp [responseOk, RspCode.bits]

/-- The host reports nothing exactly when every response is OK. -/
theorem firstError_eq_none_iff (rs : List Word) : firstError rs = none ↔ ∀ r ∈ rs, responseOk r = true := by
  induction rs with
  | nil => simp [firstError]
  | cons r rs ih => by_cases hok : responseOk r = true <;> simp [firstError, hok, ih]

theorem hostSchedule_of_runWords {key : List Byte} {s t : State} {rs : List Word}
    (h : runWords (scheduleWords key) s = some (t, rs)) (hok : ∀ r ∈ rs, responseOk r = true) :
    hostSchedule key s = some (t, .ok ()) := by
  simp only [hostSchedule, h, (firstError_eq_none_iff rs).mpr hok]

theorem hostTransform_of_runWords {data : List Byte} {s t : State} {rs : List Word}
    (h : runWords (transformWords data) s = some (t, rs)) (hok : ∀ r ∈ rs, responseOk r = true) :
    hostTransform data s = some (t, .ok (rs.map responseData)) := by
  simp only [hostTransform, h, (firstError_eq_none_iff rs).mpr hok]

/-- With a legal skip count the skipped bytes stand before the transformed rest (R168). -/
theorem hostEncrypt_of_hostTransform {key data out : List Byte} {skip : Nat} {s t u : State}
    (hskip : skip ≤ data.length) (hschedule : hostSchedule key s = some (t, .ok ()))
    (htransform : hostTransform (data.drop skip) t = some (u, .ok out)) :
    hostEncrypt key data skip s = some (u, .ok (data.take skip ++ out)) := by
  simp only [hostEncrypt, if_neg hskip.not_gt, hschedule, htransform]

/-- The document's cipher right after `schedule(key)`: its table, and both cursors 0 (R160). -/
def docStart (key : List Byte) : DocCipher := ⟨docSchedule key, 0, 0⟩

/-- `schedule` with a key starts the document's session, and the first 256 key bytes are stored (R109, R160). -/
theorem exists_hostSchedule {key : List Byte} (hne : key ≠ []) (s : State) : ∃ t,
    hostSchedule key s = some (t, .ok ()) ∧ t.valid = true ∧ MatchesDocument t (docStart key) ∧
    storedKey t = key.take 256 := by
  obtain ⟨t, hrun, hlen, hentries, hTable, hi, hj, hvalid⟩ := keysOfEveryLengthScheduled key s hne
  refine ⟨t, hostSchedule_of_runWords hrun fun r hr => ?_, hvalid,
    ⟨hTable, congrArg BitVec.toNat hi, congrArg BitVec.toNat hj⟩, ?_⟩
  · rw [List.eq_of_mem_replicate hr]
    rfl
  · have hlen' : (storedKey t).length = (key.take 256).length := by
      rw [length_storedKey, hlen, List.length_take, Nat.min_comm]
    refine List.ext_getElem hlen' fun n hn hn' => ?_
    have hnKey : n < min key.length 256 := by
      rwa [length_storedKey, hlen] at hn
    have hnLen : n < key.length := by omega
    simp [storedKey, hentries n hnKey, hnLen]

/-- A lone SCHEDULE starts the document's session of the key whose first 256 bytes are stored (R106, R164). -/
theorem exists_transact_schedule {key : List Byte} (hne : key ≠ []) {s : State} (h : storedKey s = key.take 256) :
    ∃ t, transact (encode .schedule) s = some (t, 0x0000) ∧ t.valid = true ∧ MatchesDocument t (docStart key) := by
  have hkey : s.keyLen.val ≠ 0 := by
    rw [← length_storedKey, h, List.length_take]
    have := List.length_pos_iff.mpr hne
    omega
  obtain ⟨p, hexec, hTable, _⟩ := exists_execSchedule hkey
  rw [h, docSchedule_take] at hTable
  exact ⟨_, transact_encode (i := .schedule) hexec rfl, rfl, hTable, rfl, rfl⟩

/-- `transform` in a session ends with the bytes of the document's loop, and keeps the stored key (R162). -/
theorem exists_hostTransform (data : List Byte) {s : State} {c : DocCipher} (hvalid : s.valid = true)
    (h : MatchesDocument s c) : ∃ t out, hostTransform data s = some (t, .ok out) ∧
    out.map BitVec.toNat = (docTransform data c).2 ∧ storedKey t = storedKey s := by
  obtain ⟨t, out, hrun, hbytes, _, _, hkey⟩ := exists_runWords_transformWords data hvalid h
  refine ⟨t, out, ?_, hbytes, hkey⟩
  have hhost := hostTransform_of_runWords hrun (by simp)
  simpa [Function.comp_def] using hhost

/-- The whole procedure ends with the bytes of the document's loop from the document's schedule of the key (R164). -/
theorem exists_hostEncrypt {key : List Byte} (hne : key ≠ []) (data : List Byte) (s : State) : ∃ t out,
    hostEncrypt key data 0 s = some (t, .ok out) ∧ out.map BitVec.toNat = (docTransform data (docStart key)).2 ∧
    storedKey t = key.take 256 := by
  obtain ⟨t, hschedule, hvalid, hmatch, hstored⟩ := exists_hostSchedule hne s
  obtain ⟨u, out, htransform, hbytes, hkept⟩ := exists_hostTransform data hvalid hmatch
  exact ⟨u, out, hostEncrypt_of_hostTransform (Nat.zero_le _) hschedule htransform, hbytes, hkept.trans hstored⟩

end Sys2Proof.Machine
end

section
/-! The statements about transforming a buffer and about encrypting twice (43_host_procedures.md). -/

namespace Sys2Proof.Machine

/-- Settles O27: byte by byte the block follows the document's loop and answers OK. -/
theorem transformMatchesDocument : Obligations.TransformMatchesDocument := by
  intro data s c hvalid hmatch
  obtain ⟨t, out, hrun, hbytes, hcipher, hsession, _⟩ := exists_runWords_transformWords data hvalid hmatch
  refine ⟨t, out.map (responseWord .ok), transformWords_eq data, hrun, ?_,
    hostTransform_of_runWords hrun (by simp), ?_, hcipher, hsession⟩
  · rw [List.length_map, length_eq_of_docTransform hbytes]
  · simpa [Function.comp_def] using hbytes

/-- Settles O28: each pass runs the document's loop from the document's schedule of the key, whose keystream cancels
itself; the stored key outlives the first pass, so a lone SCHEDULE starts there too. -/
theorem encryptionRoundTrip : Obligations.EncryptionRoundTrip := by
  intro key data s hne
  obtain ⟨t, out, hfirst, hbytes, hstored⟩ := exists_hostEncrypt hne data s
  refine ⟨t, out, hfirst, length_eq_of_docTransform hbytes, fun u => ?_, ?_⟩
  · obtain ⟨v, back, hsecond, hback, _⟩ := exists_hostEncrypt hne out u
    exact ⟨v, eq_of_docTransform_twice hbytes hback ▸ hsecond⟩
  · obtain ⟨u, hschedule, hvalid, hmatch⟩ := exists_transact_schedule hne hstored
    obtain ⟨v, back, hsecond, hback, _⟩ := exists_hostTransform out hvalid hmatch
    exact ⟨u, v, hschedule, eq_of_docTransform_twice hbytes hback ▸ hsecond⟩

end Sys2Proof.Machine
end

section
/-! SUPPORT. The code each command word is answered with, and that a word answered with an error writes nothing
(60_exceptions.md R180, R186). -/

namespace Sys2Proof.Machine

theorem RspCode.bits_eq_zero_iff (c : RspCode) : c.bits = 0 ↔ c = .ok := by
  cases c with
  | ok => simp [RspCode.bits]
  | error e => cases e <;> simp [RspCode.bits, CmdError.codeBits]

/-- The outcome `o` of a command started in `s` is a response with the code `c`; unless that is OK, the response carries
DATA 0x00 and is all that is written (R180). -/
def AnswersWith (c : RspCode) (s : State) (o : Host.Outcome State Fault Refusal) : Prop :=
  ∃ d u, o = respond c d u ∧ (c ≠ .ok → d = 0x00 ∧ u = s)

theorem answersWith_ok {d : Byte} {u : State} {o : Host.Outcome State Fault Refusal} (h : o = respond .ok d u)
    (s : State) : AnswersWith .ok s o :=
  ⟨d, u, h, fun hne => absurd rfl hne⟩

theorem answersWith_error {e : CmdError} {s : State} {o : Host.Outcome State Fault Refusal} (h : o = raise e s) :
    AnswersWith (.error e) s o :=
  ⟨0x00, s, h, fun _ => ⟨rfl, rfl⟩⟩

/-- The code a command is answered with (R186). -/
def commandCode (s : State) : Instr → RspCode
  | .nop => .ok
  | .keyClear => .ok
  | .keyPush _ => .ok
  | .schedule => if s.keyLen.val = 0 then .error .invalidKey else .ok
  | .xform _ => if s.valid = true then .ok else .error .notScheduled
  | .readS _ => if s.valid = true then .ok else .error .notScheduled
  | .readReg sel => if 5 ≤ sel.toNat then .error .illegalOperand else .ok
  | .endSession => .ok

theorem exec_answersWith_commandCode (i : Instr) (s : State) : AnswersWith (commandCode s i) s (exec i s) := by
  cases i with
  | nop => exact answersWith_ok rfl s
  | keyClear => exact answersWith_ok rfl s
  | keyPush b =>
    rcases keyLen_lt_or_full s with hlt | hfull
    · exact answersWith_ok (d := 0x00) (execKeyPush_of_lt b hlt) s
    · exact answersWith_ok (d := 0x00) (execKeyPush_of_full b hfull) s
  | schedule =>
    rw [commandCode]
    split
    case isTrue hempty => exact answersWith_error (execSchedule_of_keyLen_eq_zero hempty)
    case isFalse hkey => exact answersWith_ok (d := 0x00) (execSchedule_of_keyLen_ne_zero hkey) s
  | xform d =>
    rw [commandCode]
    split
    case isTrue hvalid => exact answersWith_ok (d := d ^^^ keystreamByte s) (execXform_of_valid d hvalid) s
    case isFalse hvalid => exact answersWith_error (execXform_of_not_valid d (Bool.eq_false_iff.mpr hvalid))
  | readS a =>
    rw [commandCode]
    split
    case isTrue hvalid => exact answersWith_ok (d := readEntry s.S a) (execReadS_of_valid a hvalid) s
    case isFalse hvalid => exact answersWith_error (execReadS_of_not_valid a (Bool.eq_false_iff.mpr hvalid))
  | readReg sel =>
    rw [commandCode]
    split
    case isTrue hreserved => exact answersWith_error (execReadReg_of_reserved hreserved s)
    case isFalse hdefined =>
      obtain ⟨r, hr⟩ := Option.ne_none_iff_exists'.mp (mt (selectReg_eq_none_iff sel).mp hdefined)
      exact answersWith_ok (d := readStatusReg r s) (execReadReg_of_selectReg hr s) s
  | endSession => exact answersWith_ok rfl s

/-- The code a command word is answered with (R186). -/
def wordCode (w : Word) (s : State) : RspCode :=
  match decode w with
  | .ok i => commandCode s i
  | .error _ => .error .illegalCmd

@[simp] theorem wordCode_setChannel (w : Word) (c : Channel) (s : State) :
    wordCode w (s.setChannel c) = wordCode w s := rfl

@[simp] theorem wordCode_deliver (w r : Word) (s : State) : wordCode w (deliver r s) = wordCode w s := rfl

theorem complete_answersWith_wordCode (w : Word) (s : State) : AnswersWith (wordCode w s) s (complete w s) := by
  rw [wordCode]
  cases hw : decode w with
  | ok i =>
    rw [complete_of_decode hw]
    exact exec_answersWith_commandCode i s
  | error r => exact answersWith_error (complete_of_reject hw s)

/-- A word whose code is an error writes its response alone, with DATA 0x00 (R180). -/
theorem complete_of_wordCode_ne_ok {w : Word} {s : State} (h : wordCode w s ≠ .ok) :
    complete w s = .next (s.setChannel (.responding (responseWord (wordCode w s) 0x00))) := by
  obtain ⟨d, u, hexec, hfail⟩ := complete_answersWith_wordCode w s
  obtain ⟨rfl, rfl⟩ := hfail h
  exact hexec

/-- Every word leaves a response pending, and its code is the word's (R180, R186). -/
theorem exists_complete (w : Word) (s : State) : ∃ t r, complete w s = .next t ∧ t.channel = .responding r ∧
    responseCode r = (wordCode w s).bits := by
  obtain ⟨d, u, hexec, _⟩ := complete_answersWith_wordCode w s
  exact ⟨_, _, hexec, rfl, responseCode_responseWord _ d⟩

/-- A word that left a failing response left nothing else, and the response is that of the word's code with DATA 0x00
(R180). -/
theorem eq_of_complete_fails {w r : Word} {s t : State} (h : complete w s = .next t) (hc : t.channel = .responding r)
    (hr : responseCode r ≠ 0) : wordCode w s ≠ .ok ∧ r = responseWord (wordCode w s) 0x00 ∧
      t = s.setChannel (.responding r) := by
  obtain ⟨t', r', h', hc', hcode⟩ := exists_complete w s
  obtain rfl := Host.Outcome.next.inj (h.symm.trans h')
  obtain rfl := Channel.responding.inj (hc.symm.trans hc')
  have hne : wordCode w s ≠ .ok := by rwa [hcode, Ne, RspCode.bits_eq_zero_iff] at hr
  obtain rfl := Host.Outcome.next.inj (h.symm.trans (complete_of_wordCode_ne_ok hne))
  obtain rfl := Channel.responding.inj hc
  exact ⟨hne, rfl, rfl⟩

end Sys2Proof.Machine
end

section
/-! The statements about failing commands (60_exceptions.md). -/

namespace Sys2Proof.Machine

/-- Settles O36: a failing command writes the channel alone, and no command looks at the channel. -/
theorem failedCommandWritesNothing : Obligations.FailedCommandWritesNothing := by
  intro w s
  obtain ⟨t, r, hexec, hchan, _⟩ := exists_complete w s
  refine ⟨t, r, hexec, hchan, fun hfail => ?_⟩
  obtain ⟨_, hr, rfl⟩ := eq_of_complete_fails hexec hchan hfail
  exact ⟨rfl, hr ▸ responseData_responseWord _ 0x00, fun v => complete_setChannel v _ s⟩

/-- Settles O37: the table is that of the codes, command by command. -/
theorem errorsPerCommand : Obligations.ErrorsPerCommand := by
  intro w s
  obtain ⟨t, r, hexec, hchan, hcode⟩ := exists_complete w s
  refine ⟨t, r, hexec, hchan, ?_⟩
  rw [hcode, wordCode]
  cases decode w with
  | error _ => rfl
  | ok i =>
    cases i with
    | nop | keyClear | keyPush _ | endSession => rfl
    | schedule | xform _ | readS _ | readReg _ => exact apply_ite (fun c : RspCode => c.bits.toNat) _ _ _

/-- Settles O38: neither the response nor its delivery changes what the word's code depends on, so the word fails
with the same code, which determines the response. -/
theorem retryFailsAgain : Obligations.RetryFailsAgain := by
  intro w r s t hexec hchan hfail
  obtain ⟨hne, hr, rfl⟩ := eq_of_complete_fails hexec hchan hfail
  have hcode : wordCode w (deliver r (s.setChannel (.responding r))) = wordCode w s := by simp
  refine ⟨_, complete_of_wordCode_ne_ok (hcode ▸ hne), ?_⟩
  rw [setChannel_channel, hcode, ← hr]

end Sys2Proof.Machine
end

section
/-! The statement about the reset event (70_reset_and_hazards.md section 1). -/

namespace Sys2Proof.Machine

/-- Settles O9: an applied reset is the whole step, and the reset event writes each of these items without looking
at the command channel or at the rest of the host's input. -/
theorem resetEventState : Obligations.ResetEventState := by
  intro s hreset
  exact ⟨resetBlock s.popInput, step_of_reset hreset, resetBlock_i _, resetBlock_j _, resetBlock_valid _,
    congrArg Fin.val (resetBlock_keyLen _), resetBlock_channel _⟩

end Sys2Proof.Machine
end

section
/-! SUPPORT. Which words are canonical (30_encoding.md R75, R86), and that assembled words are encodings of commands. -/

namespace Sys2Proof

/-- A word that decodes has the opcode of its command, and the command has the word's operand or none (R89). -/
theorem fields_of_decode {w : Word} {i : Instr} (h : decode w = .ok i) :
    opcodeOf w = i.opcode ∧ i.withOperand (operandOf w) = i := by
  rw [decode] at h
  split at h
  case h_9 => cases h
  all_goals
    next hopc =>
      obtain rfl := Except.ok.inj h
      exact ⟨BitVec.eq_of_toNat_eq hopc, rfl⟩

/-- A word that decodes, with the opcode written as its command's. -/
theorem eq_commandWord_of_decode {w : Word} {i : Instr} (h : decode w = .ok i) :
    w = commandWord i.opcode (operandOf w) := by
  rw [← (fields_of_decode h).1, commandWord_fields]

/-- A word with the opcode of a command is canonical exactly when the command it decodes to would be encoded with the
word's operand (R75, R86). -/
theorem canonicalWord_opcode_operand_iff (i : Instr) (opnd : Byte) :
    canonicalWord (commandWord i.opcode opnd) = true ↔ (i.withOperand opnd).operand = opnd := by
  rw [canonicalWord, definedOpcode, ignoredOperandZero, opcodeOf_commandWord, operandOf_commandWord]
  cases i with
  | nop | keyClear | schedule | endSession =>
    simp [Instr.opcode, Instr.withOperand, Instr.operand, eq_comm (a := opnd)]
  | keyPush _ | xform _ | readS _ | readReg _ => simp [Instr.opcode, Instr.withOperand, Instr.operand]

@[simp] theorem canonicalWord_encode (i : Instr) : canonicalWord (encode i) = true := by
  rw [encode, canonicalWord_opcode_operand_iff, withOperand_operand]

/-- Two words with the same opcode are the same exactly when their operands are. -/
theorem commandWord_inj_right (opc a b : Byte) : commandWord opc a = commandWord opc b ↔ a = b := by
  refine ⟨fun h => ?_, fun h => by rw [h]⟩
  simpa only [operandOf_commandWord] using congrArg operandOf h

/-- What the assembler emits for a line is the encoding of the line's commands (R87). -/
theorem Machine.exists_encode_of_assemble {lines : List String} {ws : List Word} (h : assemble lines = .ok ws) :
    ∀ w ∈ ws, ∃ i, encode i = w := by
  induction lines generalizing ws with
  | nil =>
    obtain rfl := Except.ok.inj h
    simp
  | cons l ls ih =>
    rw [assemble] at h
    split at h
    case h_1 line ws' _ hrest =>
      obtain rfl := Except.ok.inj h
      intro w hw
      rcases List.mem_append.mp hw with hline | hls
      · obtain ⟨i, _, hi⟩ := List.mem_map.mp hline
        exact ⟨i, hi⟩
      · exact ih hrest w hls
    case h_2 => cases h
    case h_3 => cases h

end Sys2Proof
end

section
/-! The statements about encoding, decoding and the assembler (30_encoding.md). -/

namespace Sys2Proof

/-- Settles O3: the opcode selects the command and the operand field gives its operand back. -/
theorem decodeEncodeRoundTrip : Obligations.DecodeEncodeRoundTrip := fun i _ =>
  ⟨decode_encode i, canonicalWord_encode i⟩

/-- Settles O4: both sides say that the command's operand is the operand field of the word. -/
theorem canonicalWordsAreEncodings : Obligations.CanonicalWordsAreEncodings := by
  intro w i h
  obtain ⟨_, hopnd⟩ := fields_of_decode h
  calc canonicalWord w = true
    _ ↔ canonicalWord (commandWord i.opcode (operandOf w)) = true := by rw [← eq_commandWord_of_decode h]
    _ ↔ i.operand = operandOf w := by rw [canonicalWord_opcode_operand_iff, hopnd]
    _ ↔ encode i = commandWord i.opcode (operandOf w) := (commandWord_inj_right _ _ _).symm
    _ ↔ encode i = w := by rw [← eq_commandWord_of_decode h]

/-- Settles O49: every emitted word is the encoding of a command. -/
theorem assemblerEmitsCanonicalWords : Obligations.AssemblerEmitsCanonicalWords := by
  intro lines ws h w hw
  obtain ⟨i, rfl⟩ := Machine.exists_encode_of_assemble h w hw
  exact canonicalWord_encode i

/-- Settles O1: each word is the opcode of its row followed by the operand. -/
theorem decodeOfWrittenWords : Obligations.DecodeOfWrittenWords :=
  ⟨decode_opcode_operand .nop 0x00, decode_opcode_operand .keyClear 0x00,
    decode_opcode_operand (.keyPush 0x4B) 0x4B, decode_opcode_operand .schedule 0xA5,
    decode_opcode_operand (.xform 0x50) 0x50, decode_opcode_operand (.readS 0xFE) 0xFE,
    decode_opcode_operand (.readReg 0x04) 0x04, decode_opcode_operand .endSession 0xFF,
    decode_reservedOpcode (opc := 0x08) (by decide) 0x00, decode_reservedOpcode (opc := 0xFF) (by decide) 0x01⟩

/-- Settles O50: the expansions are their defining equations; DUMP_S lists the numbers below 256 in order. -/
theorem pseudoInstructionExpansions : Obligations.PseudoInstructionExpansions := by
  refine ⟨fun _ => rfl, rfl, fun _ => rfl, ?_, fun n hn => ?_, rfl, rfl⟩
  · rw [Machine.AsmLine.expand, List.length_map, List.length_range]
  · rw [Machine.AsmLine.expand, List.getElem?_map, List.getElem?_range hn, Option.map_some]

end Sys2Proof
end

section
/-! SUPPORT. Every command as a function: the state it leaves before its response, the data byte it answers, and from
these the one outcome of every command, every command word and every step (00_scope.md R12, 30_encoding.md R89). -/

namespace Sys2Proof.Machine

/-- The session SCHEDULE starts on the table `p` (R106). -/
def State.startSession (p : Table) (s : State) : State := ((s.setS p).setCursors 0x00 0x00).setValid true

/-- The state a command leaves, before its response. -/
def commandEffect (s : State) : Instr → State
  | .nop => s
  | .keyClear => s.forgetK.setKeyLen 0
  | .keyPush b => if h : s.keyLen.val < 256 then s.pushKey b h else s
  | .schedule => if s.keyLen.val = 0 then s else s.startSession (scheduledTable s.K s.keyLen.val)
  | .xform _ => if s.valid = true then s.advance else s
  | .readS _ => s
  | .readReg _ => s
  | .endSession => s.endSession

/-- The data byte a command answers. -/
def commandData (s : State) : Instr → Byte
  | .nop => 0x00
  | .keyClear => 0x00
  | .keyPush _ => 0x00
  | .schedule => 0x00
  | .xform d => if s.valid = true then d ^^^ keystreamByte s else 0x00
  | .readS a => if s.valid = true then readEntry s.S a else 0x00
  | .readReg sel => (selectReg sel).elim 0x00 fun r => readStatusReg r s
  | .endSession => 0x00

/-- The one outcome of a command: its response in the state it leaves. -/
theorem exec_eq (i : Instr) (s : State) :
    exec i s = respond (commandCode s i) (commandData s i) (commandEffect s i) := by
  cases i with
  | nop | keyClear | endSession => rfl
  | keyPush b =>
    simp only [exec, execKeyPush, commandCode, commandData, commandEffect]
    split <;> rfl
  | schedule =>
    simp only [exec, execSchedule, commandCode, commandData, commandEffect]
    split <;> rfl
  | xform d =>
    simp only [exec, execXform, commandCode, commandData, commandEffect]
    split <;> rfl
  | readS a =>
    simp only [exec, execReadS, commandCode, commandData, commandEffect]
    split <;> rfl
  | readReg sel =>
    simp only [exec, execReadReg, commandCode, commandData, commandEffect, ← selectReg_eq_none_iff]
    cases selectReg sel <;> rfl

theorem commandEffect_keyPush_of_lt (b : Byte) {s : State} (h : s.keyLen.val < 256) :
    commandEffect s (.keyPush b) = s.pushKey b h := dif_pos h

theorem commandEffect_keyPush_of_full (b : Byte) {s : State} (h : s.keyLen.val = 256) :
    commandEffect s (.keyPush b) = s := dif_neg h.not_lt

/-- What a command can write: each of the five commands that write anything, with what it leaves. -/
inductive Writes (s : State) : Instr → State → Prop
  | keyClear : Writes s .keyClear (s.forgetK.setKeyLen 0)
  | keyPush (b : Byte) (h : s.keyLen.val < 256) : Writes s (.keyPush b) (s.pushKey b h)
  | schedule (p : Table) (h : s.keyLen.val ≠ 0) (hp : p = scheduledTable s.K s.keyLen.val) :
    Writes s .schedule (s.startSession p)
  | xform (d : Byte) (h : s.valid = true) : Writes s (.xform d) s.advance
  | endSession : Writes s .endSession s.endSession

theorem commandEffect_cases (s : State) (i : Instr) : commandEffect s i = s ∨ Writes s i (commandEffect s i) := by
  cases i with
  | nop | readS _ | readReg _ => exact .inl rfl
  | keyClear => exact .inr .keyClear
  | keyPush b =>
    rcases keyLen_lt_or_full s with hlt | hfull
    · exact .inr (commandEffect_keyPush_of_lt b hlt ▸ .keyPush b hlt)
    · exact .inl (commandEffect_keyPush_of_full b hfull)
  | schedule =>
    rw [commandEffect]
    split
    case isTrue => exact .inl rfl
    case isFalse hkey => exact .inr (.schedule _ hkey rfl)
  | xform d =>
    rw [commandEffect]
    split
    case isTrue hvalid => exact .inr (.xform d hvalid)
    case isFalse => exact .inl rfl
  | endSession => exact .inr .endSession

/-- No command touches the host's inputs and record. -/
theorem Writes.host {s e : State} {i : Instr} (h : Writes s i e) :
    e.inputs = s.inputs ∧ e.delivered = s.delivered := by
  cases h <;> exact ⟨rfl, rfl⟩

/-- The state with the channel and the host's inputs and record replaced. -/
def State.withHost (c : Channel) (l : List HostInput) (d : List Word) (s : State) : State :=
  { s with channel := c, inputs := l, delivered := d }

/-- No command looks at the channel or at the host's inputs and record. -/
theorem commandEffect_withHost (c : Channel) (l : List HostInput) (d : List Word) (s : State) (i : Instr) :
    commandEffect (s.withHost c l d) i = (commandEffect s i).withHost c l d := by
  cases i with
  | nop | keyClear | readS _ | readReg _ | endSession => rfl
  | keyPush b =>
    rcases keyLen_lt_or_full s with hlt | hfull
    · rw [commandEffect_keyPush_of_lt b hlt, commandEffect_keyPush_of_lt (s := s.withHost c l d) b hlt]
      rfl
    · rw [commandEffect_keyPush_of_full b hfull, commandEffect_keyPush_of_full (s := s.withHost c l d) b hfull]
  | schedule =>
    exact (apply_ite (State.withHost c l d) (s.keyLen.val = 0) s
      (s.startSession (scheduledTable s.K s.keyLen.val))).symm
  | xform _ => exact (apply_ite (State.withHost c l d) (s.valid = true) s.advance s).symm

/-- No command's data byte looks at the channel or at the host's inputs and record. -/
theorem commandData_withHost (c : Channel) (l : List HostInput) (d : List Word) (s : State) (i : Instr) :
    commandData (s.withHost c l d) i = commandData s i := by
  cases i with
  | nop | keyClear | keyPush _ | schedule | xform _ | readS _ | endSession => rfl
  | readReg sel =>
    refine congrArg (Option.elim (selectReg sel) 0x00) (funext fun r => ?_)
    cases r <;> rfl

/-- The state a command word leaves, before its response: a reserved word writes nothing (R84). -/
def wordEffect (w : Word) (s : State) : State :=
  match decode w with
  | .ok i => commandEffect s i
  | .error _ => s

theorem wordEffect_cases (w : Word) (s : State) :
    wordEffect w s = s ∨ ∃ i, decode w = .ok i ∧ Writes s i (wordEffect w s) := by
  rw [wordEffect]
  cases decode w with
  | ok i => exact (commandEffect_cases s i).imp_right fun h => ⟨i, rfl, h⟩
  | error _ => exact .inl rfl

/-- The data byte a command word is answered with. -/
def wordData (w : Word) (s : State) : Byte :=
  match decode w with
  | .ok i => commandData s i
  | .error _ => 0x00

/-- The response to a command word. -/
def wordResponse (w : Word) (s : State) : Word := responseWord (wordCode w s) (wordData w s)

/-- The one outcome of a command word: its response in the state it leaves. -/
theorem complete_eq (w : Word) (s : State) :
    complete w s = .next ((wordEffect w s).setChannel (.responding (wordResponse w s))) := by
  rw [wordResponse, wordCode, wordData, wordEffect]
  cases hw : decode w with
  | ok i => rw [complete_of_decode hw, exec_eq, respond_eq]
  | error r => rw [complete_of_reject hw, raise_eq]

@[simp] theorem wordEffect_inputs (w : Word) (s : State) : (wordEffect w s).inputs = s.inputs := by
  rcases wordEffect_cases w s with hnone | ⟨_, _, hwrites⟩
  · rw [hnone]
  · exact hwrites.host.1

@[simp] theorem wordEffect_delivered (w : Word) (s : State) : (wordEffect w s).delivered = s.delivered := by
  rcases wordEffect_cases w s with hnone | ⟨_, _, hwrites⟩
  · rw [hnone]
  · exact hwrites.host.2

theorem wordEffect_withHost (w : Word) (c : Channel) (l : List HostInput) (d : List Word) (s : State) :
    wordEffect w (s.withHost c l d) = (wordEffect w s).withHost c l d := by
  rw [wordEffect, wordEffect]
  cases decode w with
  | ok i => exact commandEffect_withHost c l d s i
  | error _ => rfl

theorem wordResponse_withHost (w : Word) (c : Channel) (l : List HostInput) (d : List Word) (s : State) :
    wordResponse w (s.withHost c l d) = wordResponse w s := by
  rw [wordResponse, wordResponse, wordCode, wordCode, wordData, wordData]
  cases decode w with
  | ok i => exact congrArg (responseWord (commandCode s i)) (commandData_withHost c l d s i)
  | error _ => rfl

/-- A command word sent alone: what it leaves, with its response taken. -/
theorem transact_eq (w : Word) (s : State) :
    transact w s = some (deliver (wordResponse w s) (wordEffect w s), wordResponse w s) :=
  (transact_of_complete (complete_eq w s) rfl).trans rfl

/-- A step with a command in flight and no reset. -/
theorem step_of_inFlight_eq {s : State} {w : Word} (hreset : s.input.reset = false) (hc : s.channel = .inFlight w) :
    step s = .next ((wordEffect w s.popInput).setChannel (.responding (wordResponse w s.popInput))) := by
  rw [step_of_inFlight hreset hc, complete_eq]

/-- A step of an idle block that is presented nothing. -/
theorem step_of_idle_quiet {s : State} (hreset : s.input.reset = false) (hc : s.channel = .idle)
    (hcommand : s.input.command = none) : step s = .next s.popInput := by
  simp only [step_of_idle hreset hc, idleStep, hcommand]

/-- A step of an idle block that is presented a command word. -/
theorem step_of_idle_command {s : State} {w : Word} (hreset : s.input.reset = false) (hc : s.channel = .idle)
    (hcommand : s.input.command = some w) : step s = .next (accept w s.popInput) := by
  simp only [step_of_idle hreset hc, idleStep, hcommand]

/-- A step of a block whose response the host leaves pending. -/
theorem step_of_responding_held {s : State} {r : Word} (hreset : s.input.reset = false)
    (hc : s.channel = .responding r) (htake : s.input.take = false) : step s = .next s.popInput := by
  simp only [step_of_responding hreset hc, respondingStep, htake, Bool.false_eq_true, if_false]

/-- A step of a block whose response the host takes. -/
theorem step_of_responding_taken {s : State} {r : Word} (hreset : s.input.reset = false)
    (hc : s.channel = .responding r) (htake : s.input.take = true) : step s = .next (deliver r s.popInput) := by
  simp only [step_of_responding hreset hc, respondingStep, htake, if_true]

/-- Every step of every state answers a next state. -/
theorem exists_step (s : State) : ∃ t, step s = .next t := by
  cases hreset : s.input.reset with
  | true => exact ⟨_, step_of_reset hreset⟩
  | false =>
    cases hc : s.channel with
    | idle => exact ⟨_, step_of_idle hreset hc⟩
    | inFlight w => exact ⟨_, step_of_inFlight_eq hreset hc⟩
    | responding r => exact ⟨_, step_of_responding hreset hc⟩

end Sys2Proof.Machine
end

section
/-! The statements about the step and the command channel (20_memory.md section 3, 30_encoding.md section 4). -/

namespace Sys2Proof.Machine

/-- Settles O8: one rule of the step per state of the channel and host input. -/
theorem handshakeOneCommandAtATime : Obligations.HandshakeOneCommandAtATime := by
  intro s hreset
  refine ⟨step_of_idle_quiet hreset, fun w => step_of_idle_command hreset, fun w hc => ?_,
    fun r => step_of_responding_held hreset, fun r => step_of_responding_taken hreset⟩
  exact ⟨_, _, step_of_inFlight_eq hreset hc, rfl, wordEffect_delivered w s.popInput, wordEffect_inputs w s.popInput⟩

/-- Settles O12: a command in flight is answered, and every other step is a next state by its definition. -/
theorem stepAlwaysAnswersNext : Obligations.StepAlwaysAnswersNext := exists_step

/-- Settles O6: a reserved word is accepted like any other, its refusal writes the channel alone, and no command looks
at the channel. -/
theorem reservedOpcodesAnswered : Obligations.ReservedOpcodesAnswered := by
  intro s opc opnd hreserved
  refine ⟨fun hc hreset hcommand => step_of_idle_command hreset hc hcommand, ?_, fun w => complete_setChannel w _ s⟩
  exact complete_of_reject (decode_reservedOpcode hreserved opnd) s

/-- Settles O7: with a word in flight the step is the word's completion, and a placed word is in flight under a quiet
host. -/
theorem stepRunsDecodedCommand : Obligations.StepRunsDecodedCommand := by
  refine ⟨fun s w i hc hreset hw _ => ?_, fun s opc opnd hc hreset hreserved => ?_, fun s w i hw => ?_⟩
  · exact (step_of_inFlight hreset hc).trans (complete_of_decode hw s.popInput)
  · exact (step_of_inFlight hreset hc).trans (complete_of_reject (decode_reservedOpcode hreserved opnd) s.popInput)
  · rw [State.withFetchWord, tableWord_toNat]
    exact (step_of_inFlight rfl rfl).trans (complete_of_decode hw _)

/-- Settles O10: the reset event writes neither list, and the step consumes one input whatever else it does. -/
theorem resetEventKeepsHostRecord : Obligations.ResetEventKeepsHostRecord := fun s hreset =>
  ⟨_, step_of_reset hreset, resetBlock_delivered s.popInput, resetBlock_inputs s.popInput⟩

end Sys2Proof.Machine
end

section
/-! SUPPORT. Operation by operation: the invariant is kept (10_state.md R22, 30_encoding.md R80 to R82). -/

namespace Sys2Proof

open Machine

theorem inv_reset : Inv State.reset where
  permutation h := absurd h Bool.false_ne_true
  cursors _ := ⟨rfl, rfl⟩
  pending _ h := Channel.noConfusion h
  taken _ h := absurd h List.not_mem_nil

theorem Inv.popInput {s : State} (h : Inv s) : Inv s.popInput := ⟨h.permutation, h.cursors, h.pending, h.taken⟩

theorem Inv.setChannel {s : State} (h : Inv s) {c : Channel} (hc : ∀ r, c = .responding r → LegalResponse r) :
    Inv (s.setChannel c) := ⟨h.permutation, h.cursors, hc, h.taken⟩

/-- Accepting a word leaves no response pending. -/
theorem Inv.accept {s : State} (h : Inv s) (w : Word) : Inv (accept w s) :=
  h.setChannel fun _ hc => Channel.noConfusion hc

theorem Inv.deliver {s : State} (h : Inv s) {r : Word} (hr : LegalResponse r) : Inv (deliver r s) where
  permutation := h.permutation
  cursors := h.cursors
  pending _ hc := Channel.noConfusion hc
  taken r' hr' := by
    rcases List.mem_append.mp hr' with hold | hnew
    · exact h.taken r' hold
    · rwa [List.mem_singleton.mp hnew]

theorem Inv.resetBlock {s : State} (h : Inv s) : Inv (resetBlock s) where
  permutation hvalid := absurd hvalid Bool.false_ne_true
  cursors _ := ⟨rfl, rfl⟩
  pending _ hc := Channel.noConfusion hc
  taken := h.taken

/-- A command that writes keeps the invariant: SCHEDULE builds a permutation, XFORM swaps, END zeroes the cursors. -/
theorem Inv.writes {s e : State} {i : Instr} (h : Inv s) (hw : Writes s i e) : Inv e := by
  cases hw with
  | keyClear => exact ⟨h.permutation, h.cursors, h.pending, h.taken⟩
  | keyPush b hlt => exact ⟨h.permutation, h.cursors, h.pending, h.taken⟩
  | schedule p hkey hp =>
    exact ⟨fun _ => hp ▸ isPermutation_scheduledTable _ _, fun _ => ⟨rfl, rfl⟩, h.pending, h.taken⟩
  | xform d hvalid =>
    exact ⟨fun _ => (h.permutation hvalid).swapEntries _ _,
      fun hnone => absurd (hvalid.symm.trans hnone) Bool.noConfusion, h.pending, h.taken⟩
  | endSession =>
    exact ⟨fun hvalid => absurd hvalid Bool.false_ne_true, fun _ => ⟨rfl, rfl⟩, h.pending, h.taken⟩

theorem Inv.wordEffect {s : State} (h : Inv s) (w : Word) : Inv (wordEffect w s) := by
  rcases wordEffect_cases w s with hnone | ⟨_, _, hwrites⟩
  · rwa [hnone]
  · exact h.writes hwrites

theorem RspCode.bits_le (c : RspCode) : c.bits.toNat ≤ 4 := by
  cases c with
  | ok => decide
  | error e => cases e <;> decide

/-- A response word is legal as soon as an error carries DATA 0x00 (R80 to R82). -/
theorem legalResponse_responseWord {c : RspCode} {d : Byte} (h : c ≠ .ok → d = 0x00) :
    LegalResponse (responseWord c d) := by
  refine ⟨responseReserved_responseWord c d, ?_, ?_⟩
  · rw [responseCode_responseWord]
    exact RspCode.bits_le c
  · rw [responseCode_responseWord, responseData_responseWord, Ne, RspCode.bits_eq_zero_iff]
    exact h

/-- A failing command word is answered with DATA 0x00 (R180). -/
theorem Machine.wordData_of_wordCode_ne_ok {w : Word} {s : State} (h : wordCode w s ≠ .ok) : wordData w s = 0x00 := by
  have hstate := Host.Outcome.next.inj ((complete_eq w s).symm.trans (complete_of_wordCode_ne_ok h))
  have hword : wordResponse w s = responseWord (wordCode w s) 0x00 :=
    Channel.responding.inj (congrArg State.channel hstate)
  simpa only [wordResponse, responseData_responseWord] using congrArg responseData hword

theorem legalResponse_wordResponse (w : Word) (s : State) : LegalResponse (wordResponse w s) :=
  legalResponse_responseWord wordData_of_wordCode_ne_ok

end Sys2Proof
end

section
/-! The statements about the invariant of the block. -/

namespace Sys2Proof.Machine

/-- Settles O39: no session, no cursor set, no response. -/
theorem resetMeetsInvariant : Obligations.ResetMeetsInvariant := inv_reset

/-- Settles O40: the step is the reset event, an acceptance, a carrying out, a delivery, or waiting, and each keeps the
invariant; every response the block makes is legal. -/
theorem stepKeepsInvariant : Obligations.StepKeepsInvariant := by
  intro s t hInv hstep
  rcases step_cases hstep with ⟨_, rfl⟩ | ⟨_, _, rfl⟩ | ⟨w, _, _, hcomplete⟩ | ⟨r, _, hc, rfl⟩
  · exact hInv.popInput.resetBlock
  · rw [idleStep]
    split
    · exact hInv.popInput.accept _
    · exact hInv.popInput
  · obtain rfl := Host.Outcome.next.inj ((complete_eq w _).symm.trans hcomplete)
    refine (hInv.popInput.wordEffect w).setChannel fun r hr => ?_
    obtain rfl := Channel.responding.inj hr
    exact legalResponse_wordResponse w _
  · rw [respondingStep]
    split
    · exact hInv.popInput.deliver (hInv.pending r hc)
    · exact hInv.popInput

end Sys2Proof.Machine
end

section
/-! SUPPORT. Operation by operation: states that no host can tell apart stay so, and give the same responses
(10_state.md R31, R33). -/

namespace Sys2Proof

open Machine

namespace Indistinguishable

variable {s t : State}

theorem popInput (h : Indistinguishable s t) : Indistinguishable s.popInput t.popInput :=
  { h with inputs := congrArg List.tail h.inputs }

theorem setChannel (h : Indistinguishable s t) (c : Channel) : Indistinguishable (s.setChannel c) (t.setChannel c) :=
  { h with channel := rfl }

theorem deliver (h : Indistinguishable s t) (r : Word) : Indistinguishable (deliver r s) (deliver r t) :=
  { h with channel := rfl, delivered := congrArg (· ++ [r]) h.delivered }

theorem input (h : Indistinguishable s t) : s.input = t.input := by
  rw [State.input, State.input, h.inputs]

/-- With no key byte stored and no session nothing of the storage is observable. -/
theorem resetBlock (h : Indistinguishable s t) : Indistinguishable (resetBlock s) (resetBlock t) where
  i := rfl
  j := rfl
  valid := rfl
  keyLen := rfl
  channel := rfl
  inputs := h.inputs
  delivered := h.delivered
  key _ hx := absurd hx (Nat.not_lt_zero _)
  permutation hvalid := absurd hvalid Bool.false_ne_true

theorem keyClear (h : Indistinguishable s t) :
    Indistinguishable (s.forgetK.setKeyLen 0) (t.forgetK.setKeyLen 0) :=
  { h with keyLen := rfl, key := fun _ hx => absurd hx (Nat.not_lt_zero _) }

theorem pushKey (h : Indistinguishable s t) (b : Byte) (hs : s.keyLen.val < 256) (ht : t.keyLen.val < 256) :
    Indistinguishable (s.pushKey b hs) (t.pushKey b ht) :=
  { h with
    keyLen := Fin.ext (congrArg (· + 1) (congrArg Fin.val h.keyLen))
    key := fun x hx => by
      rw [pushKey_keyLen] at hx
      rw [pushKey_K, pushKey_K, readEntry_writeEntry, readEntry_writeEntry, ← h.keyLen]
      split
      case isTrue => rfl
      case isFalse hne =>
        rw [eq_ofNat_keyLen_iff hs] at hne
        exact h.key x (by omega) }

/-- The table SCHEDULE builds depends on the stored key alone (R108). -/
theorem scheduledTable_eq (h : Indistinguishable s t) (hkey : s.keyLen.val ≠ 0) :
    scheduledTable s.K s.keyLen.val = scheduledTable t.K t.keyLen.val := by
  have hs := scheduledTable_matches_docSchedule hkey
  have ht := scheduledTable_matches_docSchedule (s := t) (h.keyLen ▸ hkey)
  rw [← storedKey_congr h.keyLen h.key] at ht
  exact hs.unique ht

theorem startSession (h : Indistinguishable s t) (p : Table) :
    Indistinguishable (s.startSession p) (t.startSession p) :=
  { h with i := rfl, j := rfl, valid := rfl, permutation := fun _ => rfl }

theorem endSession (h : Indistinguishable s t) : Indistinguishable s.endSession t.endSession :=
  { h with i := rfl, j := rfl, valid := rfl, permutation := fun hvalid => absurd hvalid Bool.false_ne_true }

theorem advancedI_eq (h : Indistinguishable s t) : advancedI s = advancedI t := by
  rw [advancedI, advancedI, h.i]

theorem advancedJ_eq (h : Indistinguishable s t) (hvalid : s.valid = true) : advancedJ s = advancedJ t := by
  rw [advancedJ, advancedJ, h.j, h.permutation hvalid, h.advancedI_eq]

theorem advancedS_eq (h : Indistinguishable s t) (hvalid : s.valid = true) : advancedS s = advancedS t := by
  rw [advancedS, advancedS, h.permutation hvalid, h.advancedI_eq, h.advancedJ_eq hvalid]

theorem advance (h : Indistinguishable s t) (hvalid : s.valid = true) : Indistinguishable s.advance t.advance :=
  { h with i := h.advancedI_eq, j := h.advancedJ_eq hvalid, permutation := fun _ => h.advancedS_eq hvalid }

theorem keystreamByte_eq (h : Indistinguishable s t) (hvalid : s.valid = true) :
    keystreamByte s = keystreamByte t := by
  rw [keystreamByte, keystreamByte, h.advancedS_eq hvalid, h.advancedI_eq, h.advancedJ_eq hvalid]

/-- The status registers show `VALID`, the cursors and `key_len`. -/
theorem readStatusReg_eq (h : Indistinguishable s t) (r : StatusReg) : readStatusReg r s = readStatusReg r t := by
  cases r with
  | status => simp only [readStatusReg, statusByte, keyEmpty, keyFull, h.keyLen, h.valid]
  | i => exact h.i
  | j => exact h.j
  | keyLenLo | keyLenHi => simp only [readStatusReg, keyLenBits, h.keyLen]

theorem commandCode_eq (h : Indistinguishable s t) (i : Instr) : commandCode s i = commandCode t i := by
  cases i <;> simp only [commandCode, h.keyLen, h.valid]

theorem commandData_eq (h : Indistinguishable s t) (i : Instr) : commandData s i = commandData t i := by
  cases i with
  | nop | keyClear | keyPush _ | schedule | endSession => rfl
  | xform d =>
    rw [commandData, commandData, ← h.valid]
    split
    case isTrue hvalid => rw [h.keystreamByte_eq hvalid]
    case isFalse => rfl
  | readS a =>
    rw [commandData, commandData, ← h.valid]
    split
    case isTrue hvalid => rw [h.permutation hvalid]
    case isFalse => rfl
  | readReg sel =>
    exact congrArg (Option.elim (selectReg sel) 0x00) (funext h.readStatusReg_eq)

theorem commandEffect (h : Indistinguishable s t) (i : Instr) :
    Indistinguishable (commandEffect s i) (commandEffect t i) := by
  cases i with
  | nop | readS _ | readReg _ => exact h
  | keyClear => exact h.keyClear
  | keyPush b =>
    rcases keyLen_lt_or_full s with hlt | hfull
    · rw [commandEffect_keyPush_of_lt b hlt, commandEffect_keyPush_of_lt (s := t) b (h.keyLen ▸ hlt)]
      exact h.pushKey b _ _
    · rw [commandEffect_keyPush_of_full b hfull, commandEffect_keyPush_of_full (s := t) b (h.keyLen ▸ hfull)]
      exact h
  | schedule =>
    rw [Machine.commandEffect, Machine.commandEffect, ← h.keyLen]
    split
    case isTrue => exact h
    case isFalse hkey =>
      rw [h.scheduledTable_eq hkey, ← h.keyLen]
      exact h.startSession _
  | xform d =>
    rw [Machine.commandEffect, Machine.commandEffect, ← h.valid]
    split
    case isTrue hvalid => exact h.advance hvalid
    case isFalse => exact h
  | endSession => exact h.endSession

theorem wordEffect (h : Indistinguishable s t) (w : Word) :
    Indistinguishable (wordEffect w s) (wordEffect w t) := by
  rw [Machine.wordEffect, Machine.wordEffect]
  cases decode w with
  | ok i => exact h.commandEffect i
  | error _ => exact h

theorem wordResponse_eq (h : Indistinguishable s t) (w : Word) : wordResponse w s = wordResponse w t := by
  rw [wordResponse, wordResponse, wordCode, wordCode, wordData, wordData]
  cases decode w with
  | ok i => exact congrArg₂ responseWord (h.commandCode_eq i) (h.commandData_eq i)
  | error _ => rfl

theorem idleStep (h : Indistinguishable s t) (inp : HostInput) :
    Indistinguishable (idleStep inp s) (idleStep inp t) := by
  rw [Machine.idleStep, Machine.idleStep]
  cases inp.command with
  | none => exact h
  | some w => exact h.setChannel _

theorem respondingStep (h : Indistinguishable s t) (inp : HostInput) (r : Word) :
    Indistinguishable (respondingStep inp r s) (respondingStep inp r t) := by
  rw [Machine.respondingStep, Machine.respondingStep]
  split
  · exact h.deliver r
  · exact h

/-- One step leads from states that no host can tell apart to such states. -/
theorem exists_step (h : Indistinguishable s t) :
    ∃ s' t', step s = .next s' ∧ step t = .next t' ∧ Indistinguishable s' t' := by
  have hpop := h.popInput
  cases hreset : s.input.reset with
  | true => exact ⟨_, _, step_of_reset hreset, step_of_reset (h.input ▸ hreset), hpop.resetBlock⟩
  | false =>
    have hreset' : t.input.reset = false := h.input ▸ hreset
    cases hc : s.channel with
    | idle =>
      refine ⟨_, _, step_of_idle hreset hc, step_of_idle hreset' (h.channel ▸ hc), ?_⟩
      rw [h.input]
      exact hpop.idleStep _
    | inFlight w =>
      refine ⟨_, _, step_of_inFlight_eq hreset hc, step_of_inFlight_eq hreset' (h.channel ▸ hc), ?_⟩
      rw [hpop.wordResponse_eq]
      exact (hpop.wordEffect w).setChannel _
    | responding r =>
      refine ⟨_, _, step_of_responding hreset hc, step_of_responding hreset' (h.channel ▸ hc), ?_⟩
      rw [h.input]
      exact hpop.respondingStep _ r

end Indistinguishable

end Sys2Proof
end

section
/-! The statement about unspecified storage (10_state.md section 4). -/

namespace Sys2Proof.Machine

/-- Settles O45: by induction on the number of steps, each of which keeps the relation; the relation holds the delivered
responses. -/
theorem unspecifiedStorageUnobservable : Obligations.UnspecifiedStorageUnobservable := by
  intro n
  induction n with
  | zero => exact fun s t h => ⟨s, t, rfl, rfl, h⟩
  | succ n ih =>
    intro s t h
    obtain ⟨s₁, t₁, hs, ht, h₁⟩ := h.exists_step
    obtain ⟨s', t', hs', ht', h'⟩ := ih s₁ t₁ h₁
    exact ⟨s', t', (run_succ hs n).trans hs', (run_succ ht n).trans ht', h'⟩

end Sys2Proof.Machine
end

section
/-! SUPPORT. What one step can do to the block's storage, flag and cursors (10_state.md sections 1 to 3). -/

namespace Sys2Proof.Machine

/-- `t` has the storage, the cursors, `VALID` and `key_len` of `e`; the channel and the host's record may differ. -/
structure SameBlock (t e : State) : Prop where
  i : t.i = e.i
  j : t.j = e.j
  valid : t.valid = e.valid
  keyLen : t.keyLen = e.keyLen
  S : t.S = e.S
  K : t.K = e.K

theorem SameBlock.rfl {s : State} : SameBlock s s := ⟨Eq.refl _, Eq.refl _, Eq.refl _, Eq.refl _, Eq.refl _, Eq.refl _⟩

/-- Taking off the host's input changes nothing of the block. -/
theorem SameBlock.of_popInput {t s : State} (h : SameBlock t s.popInput) : SameBlock t s :=
  ⟨h.i, h.j, h.valid, h.keyLen, h.S, h.K⟩

theorem sameBlock_withHost (c : Channel) (l : List HostInput) (d : List Word) (s : State) :
    SameBlock (s.withHost c l d) s := ⟨rfl, rfl, rfl, rfl, rfl, rfl⟩

theorem sameBlock_idleStep (inp : HostInput) (s : State) : SameBlock (idleStep inp s) s := by
  rw [idleStep]
  cases inp.command with
  | none => exact SameBlock.rfl
  | some w => exact sameBlock_withHost (.inFlight w) s.inputs s.delivered s

theorem sameBlock_respondingStep (inp : HostInput) (r : Word) (s : State) :
    SameBlock (respondingStep inp r s) s := by
  rw [respondingStep]
  split
  · exact sameBlock_withHost .idle s.inputs (s.delivered ++ [r]) s
  · exact SameBlock.rfl

/-- A command word in flight writes what its command writes, or nothing. -/
theorem sameBlock_of_complete {w : Word} {s t : State} (h : complete w s.popInput = .next t) :
    SameBlock t s ∨ ∃ i e, decode w = .ok i ∧ Writes s i e ∧ SameBlock t e := by
  have hpop : s.popInput = s.withHost s.channel s.inputs.tail s.delivered := rfl
  have hblock : SameBlock t (wordEffect w s) := by
    rw [hpop, complete_eq, wordEffect_withHost] at h
    obtain rfl := Host.Outcome.next.inj h
    exact sameBlock_withHost (.responding _) s.inputs.tail s.delivered (wordEffect w s)
  rcases wordEffect_cases w s with hnone | ⟨i, hw, hwrites⟩
  · rw [hnone] at hblock
    exact .inl hblock
  · exact .inr ⟨i, _, hw, hwrites, hblock⟩

/-- A step is the reset event, or writes what a command in flight writes, or leaves the block as it was. -/
theorem step_writes {s t : State} (h : step s = .next t) :
    (s.input.reset = true ∧ t = resetBlock s.popInput) ∨
    (∃ w i e, s.input.reset = false ∧ s.channel = .inFlight w ∧ decode w = .ok i ∧ Writes s i e ∧ SameBlock t e) ∨
    SameBlock t s := by
  rcases step_cases h with hreset | ⟨_, _, rfl⟩ | ⟨w, hreset, hc, hcomplete⟩ | ⟨r, _, _, rfl⟩
  · exact .inl hreset
  · exact .inr (.inr (sameBlock_idleStep _ _).of_popInput)
  · rcases sameBlock_of_complete hcomplete with hsame | ⟨i, e, hw, hwrites, hblock⟩
    · exact .inr (.inr hsame)
    · exact .inr (.inl ⟨w, i, e, hreset, hc, hw, hwrites, hblock⟩)
  · exact .inr (.inr (sameBlock_respondingStep _ r _).of_popInput)

end Sys2Proof.Machine
end

section
/-! The statements about which step writes which item of the state (10_state.md). -/

namespace Sys2Proof.Machine

/-- Settles O41: of the commands that write, only SCHEDULE and END write `VALID`. -/
theorem validChangesOnlyBy : Obligations.ValidChangesOnlyBy := by
  intro s t hstep hne
  rcases step_writes hstep with ⟨hreset, rfl⟩ | ⟨w, i, e, hreset, hc, hw, hwrites, hblock⟩ | hsame
  · exact .inr ⟨Bool.eq_true_of_not_eq_false hne.symm, .inl hreset⟩
  · rw [hblock.valid] at hne
    cases hwrites with
    | keyClear | keyPush _ _ | xform _ _ => exact absurd rfl hne
    | schedule p hkey _ => exact .inl ⟨Bool.eq_false_of_not_eq_true hne.symm, hreset, hkey, w, hc, hw⟩
    | endSession => exact .inr ⟨Bool.eq_true_of_not_eq_false hne.symm, .inr ⟨w, hc, hw⟩⟩
  · exact absurd hsame.valid hne

/-- Settles O42: KEY_CLEAR and KEY_PUSH keep `S`, and the other commands that write are the three named. -/
theorem permutationStateWrittenOnlyBy : Obligations.PermutationStateWrittenOnlyBy := by
  intro s t hstep hne
  rcases step_writes hstep with ⟨hreset, _⟩ | ⟨w, i, e, _, hc, hw, hwrites, hblock⟩ | hsame
  · exact .inl hreset
  · refine .inr ⟨w, i, hc, hw, ?_⟩
    rw [hblock.S] at hne
    cases hwrites with
    | keyClear | keyPush _ _ => exact absurd rfl hne
    | schedule p hkey _ => exact .inl ⟨rfl, hkey⟩
    | xform d hvalid => exact .inr (.inl ⟨⟨d, rfl⟩, hvalid⟩)
    | endSession => exact .inr (.inr rfl)
  · exact absurd hsame.S hne

/-- Settles O43: SCHEDULE, XFORM and END keep `K` and `key_len`. -/
theorem keyStoreWrittenOnlyBy : Obligations.KeyStoreWrittenOnlyBy := by
  intro s t hstep hne
  rcases step_writes hstep with ⟨hreset, _⟩ | ⟨w, i, e, _, hc, hw, hwrites, hblock⟩ | hsame
  · exact .inl hreset
  · refine .inr ⟨w, hc, ?_⟩
    rw [hblock.K, hblock.keyLen] at hne
    cases hwrites with
    | keyClear => exact .inr hw
    | keyPush b hlt => exact .inl ⟨⟨b, hw⟩, hlt⟩
    | schedule _ _ _ | xform _ _ | endSession => exact absurd hne (not_or_intro (fun h => h rfl) fun h => h rfl)
  · exact absurd hne (not_or_intro (fun h => h hsame.K) fun h => h hsame.keyLen)

/-- Settles O44: KEY_CLEAR and KEY_PUSH keep the cursors; SCHEDULE and END zero them, and XFORM advances them. -/
theorem cursorsWrittenOnlyBy : Obligations.CursorsWrittenOnlyBy := by
  intro s t hstep hne
  rcases step_writes hstep with ⟨hreset, rfl⟩ | ⟨w, i, e, _, hc, hw, hwrites, hblock⟩ | hsame
  · exact .inl ⟨.inl hreset, rfl, rfl⟩
  · rw [hblock.i, hblock.j] at hne ⊢
    cases hwrites with
    | keyClear | keyPush _ _ => exact absurd hne (not_or_intro (fun h => h rfl) fun h => h rfl)
    | schedule _ _ _ => exact .inl ⟨.inr ⟨w, hc, .inl hw⟩, rfl, rfl⟩
    | xform d hvalid => exact .inr ⟨w, d, hc, hw, hvalid, rfl, rfl⟩
    | endSession => exact .inl ⟨.inr ⟨w, hc, .inr hw⟩, rfl, rfl⟩
  · exact absurd hne (not_or_intro (fun h => h hsame.i) fun h => h hsame.j)

end Sys2Proof.Machine
end

section
/-! SUPPORT. A command against the same command on another key store (10_state.md R28). -/

namespace Sys2Proof.Machine

/-- Neither the code nor the data of a response looks at the key store. -/
theorem commandCode_setK (k : Table) (s : State) (i : Instr) : commandCode (s.setK k) i = commandCode s i := by
  cases i <;> rfl

theorem commandData_setK (k : Table) (s : State) (i : Instr) : commandData (s.setK k) i = commandData s i := by
  cases i with
  | nop | keyClear | keyPush _ | schedule | xform _ | readS _ | endSession => rfl
  | readReg sel =>
    refine congrArg (Option.elim (selectReg sel) 0x00) (funext fun r => ?_)
    cases r <;> rfl

/-- Only SCHEDULE carries the key store into the rest of the state. -/
theorem commandEffect_setK {i : Instr} (h : i ≠ .schedule) (k : Table) (s : State) :
    commandEffect (s.setK k) i = (commandEffect s i).setK (commandEffect (s.setK k) i).K := by
  cases i with
  | nop | keyClear | readS _ | readReg _ | endSession => rfl
  | schedule => exact absurd rfl h
  | keyPush b =>
    rcases keyLen_lt_or_full s with hlt | hfull
    · rw [commandEffect_keyPush_of_lt b hlt, commandEffect_keyPush_of_lt (s := s.setK k) b hlt]
      rfl
    · rw [commandEffect_keyPush_of_full b hfull, commandEffect_keyPush_of_full (s := s.setK k) b hfull]
      rfl
  | xform d =>
    rw [commandEffect, commandEffect, setK_valid]
    split <;> rfl

end Sys2Proof.Machine
end

section
/-! The statements about single commands and their responses. -/

namespace Sys2Proof.Machine

/-- Settles O46: code, data and, but for SCHEDULE, everything written but `K` are the same for every key store. -/
theorem keyStoreNeverReturned : Obligations.KeyStoreNeverReturned := by
  intro i s k
  have hresponse : responseWord (commandCode (s.setK k) i) (commandData (s.setK k) i) =
      responseWord (commandCode s i) (commandData s i) := by
    rw [commandCode_setK, commandData_setK]
  refine ⟨_, _, exec_eq i s, exec_eq i (s.setK k), congrArg Channel.responding hresponse, fun hne => ?_⟩
  rw [hresponse]
  exact congrArg (State.setChannel _) (commandEffect_setK hne k s)

/-- Settles O19: refused, SCHEDULE refuses again; carried out, it leaves the key as it was and builds the same table. -/
theorem scheduleIsIdempotent : Obligations.ScheduleIsIdempotent := by
  intro s t h
  by_cases hkey : s.keyLen.val = 0
  · obtain rfl := Host.Outcome.next.inj ((execSchedule_of_keyLen_eq_zero hkey).symm.trans h)
    exact execSchedule_of_keyLen_eq_zero hkey
  · obtain ⟨p, hs, hp, _⟩ := exists_execSchedule hkey
    obtain rfl := Host.Outcome.next.inj (hs.symm.trans h)
    obtain ⟨q, ht, hq, _⟩ := exists_execSchedule
      (s := { s with S := p, i := 0x00, j := 0x00, valid := true, channel := .responding 0x0000 }) hkey
    obtain rfl := hp.unique hq
    exact ht

/-- Settles O24: the state is the advanced one and the byte the keystream byte, neither of which depends on the data. -/
theorem keystreamIndependentOfData : Obligations.KeystreamIndependentOfData := fun s hvalid =>
  ⟨s.advance, keystreamByte s, fun d => execXform_of_valid d hvalid⟩

/-- Settles O35: there is no session after reset, and a select below 5 names a register. -/
theorem refusalsRightAfterReset : Obligations.RefusalsRightAfterReset := by
  refine ⟨fun d => execXform_of_not_valid d rfl, fun a => execReadS_of_not_valid a rfl, fun sel hsel => ?_,
    execNop_eq State.reset⟩
  obtain ⟨r, hr⟩ := Option.ne_none_iff_exists'.mp (mt (selectReg_eq_none_iff sel).mp hsel.not_ge)
  exact ⟨_, execReadReg_of_selectReg hr State.reset⟩

end Sys2Proof.Machine
end

section
/-! SUPPORT. The first cursor of the document's loop, and the READ_S of a list of indices. -/

namespace Sys2Proof

open Machine

/-- The document's first cursor counts the byte positions modulo 256 (41_keystream.md R120). -/
theorem docTransform_i (data : List Byte) {c : DocCipher} (h : c.i < 256) :
    (docTransform data c).1.i = (c.i + data.length) % 256 := by
  induction data generalizing c with
  | nil => exact (Nat.mod_eq_of_lt h).symm
  | cons d ds ih =>
    have hnext : (docNext c).1.i = (c.i + 1) % 256 := rfl
    have hlt : (docNext c).1.i < 256 := hnext ▸ Nat.mod_lt _ (by decide)
    rw [docTransform, ih hlt, hnext, List.length_cons]
    omega

namespace Machine

theorem hostSchedule_of_firstError {key : List Byte} {s t : State} {rs : List Word} {e : HostError}
    (h : runWords (scheduleWords key) s = some (t, rs)) (he : firstError rs = some e) :
    hostSchedule key s = some (t, .error e) := by
  simp only [hostSchedule, h, he]

/-- READ_S of a list of indices in a session answers OK with the entries at these, in order (R140). -/
theorem exists_runWords_readS (indices : List Byte) {s : State} (hvalid : s.valid = true) : ∃ t,
    runWords (indices.map fun a => encode (.readS a)) s =
      some (t, indices.map fun a => responseWord .ok (readEntry s.S a)) := by
  induction indices generalizing s with
  | nil => exact ⟨s, rfl⟩
  | cons a as ih =>
    have hstep := transact_encode (i := .readS a) (execReadS_of_valid a hvalid) rfl
    obtain ⟨t, hrun⟩ := ih (s := deliver _ (s.setChannel (.responding _))) hvalid
    exact ⟨t, runWords_cons_of_some hstep hrun⟩

/-- The 256 indices DUMP_S reads, in order (30_encoding.md R88). -/
def dumpIndices : List Byte := (List.range 256).map (BitVec.ofNat 8)

theorem dumpS_words_eq : AsmLine.dumpS.expand.map encode = dumpIndices.map fun a => encode (.readS a) := by
  simp [AsmLine.expand, dumpIndices, Function.comp_def]

theorem length_dumpIndices : dumpIndices.length = 256 := by
  rw [dumpIndices, List.length_map, List.length_range]

theorem mem_dumpIndices (a : Byte) : a ∈ dumpIndices :=
  List.mem_map.mpr ⟨a.toNat, List.mem_range.mpr a.isLt, by simp⟩

/-- DUMP_S reads no index twice. -/
theorem nodup_dumpIndices : dumpIndices.Nodup := by
  refine List.Nodup.map_on (fun m hm n hn h => ?_) List.nodup_range
  have hm' : m < 256 := List.mem_range.mp hm
  have hn' : n < 256 := List.mem_range.mp hn
  have hval := congrArg BitVec.toNat h
  rwa [BitVec.toNat_ofNat, BitVec.toNat_ofNat, Nat.mod_eq_of_lt hm', Nat.mod_eq_of_lt hn'] at hval

/-- Over all indices a permutation takes each value once. -/
theorem count_dumpIndices_map {p : Table} (h : IsPermutation p) (v : Byte) :
    (dumpIndices.map (readEntry p)).count v = 1 := by
  have hbij := (isPermutation_iff_bijective p).mp h
  obtain ⟨a, ha⟩ := hbij.surjective v
  exact List.count_eq_one_of_mem (nodup_dumpIndices.map hbij.injective)
    (List.mem_map.mpr ⟨a, mem_dumpIndices a, ha⟩)

end Machine

end Sys2Proof
end

section
/-! The statements about sequences of commands and the host procedures (41_keystream.md, 42_session_readback.md,
43_host_procedures.md). -/

namespace Sys2Proof.Machine

/-- Settles O21: KEY_CLEAR leaves no key, so SCHEDULE refuses and writes nothing, and the host reports its code. -/
theorem emptyKeyRefused : Obligations.EmptyKeyRefused := by
  intro s
  have hclear := transact_encode (i := .keyClear) (execKeyClear_eq s) rfl
  have hrefused := transact_encode (i := .schedule)
    (execSchedule_of_keyLen_eq_zero
      (s := deliver 0x0000 ((s.forgetK.setKeyLen 0).setChannel (.responding 0x0000))) rfl) rfl
  have hrun := runWords_cons_of_some hclear (runWords_cons_of_some hrefused (runWords_nil _))
  exact ⟨_, hostSchedule_of_firstError (key := []) hrun rfl, rfl, rfl, rfl, rfl, rfl⟩

/-- Settles O26: SCHEDULE starts the document's session, whose loop the XFORMs follow, and that counts its positions. -/
theorem cursorCountsXforms : Obligations.CursorCountsXforms := by
  intro s data hkey
  obtain ⟨p, hexec, hTable, _⟩ := exists_execSchedule hkey
  obtain ⟨u, out, hrun, _, ⟨_, hi, _⟩, hvalid, _⟩ :=
    exists_runWords_transformWords data
      (s := { s with S := p, i := 0x00, j := 0x00, valid := true, channel := .responding 0x0000 })
      (c := docStart (storedKey s)) rfl ⟨hTable, rfl, rfl⟩
  refine ⟨_, u, _, hexec, hrun, ?_, hvalid⟩
  have hstart : (docStart (storedKey s)).i = 0 := rfl
  rw [hi, docTransform_i data (hstart ▸ by decide), hstart, Nat.zero_add]

/-- Settles O29: with a legal skip count both calls schedule the key and transform the same suffix. -/
theorem skipRegionPolicy : Obligations.SkipRegionPolicy := by
  refine ⟨fun key data skip s hlarge => if_pos hlarge, fun key data skip s hne hskip => ?_⟩
  obtain ⟨t, hschedule, hvalid, hmatch, _⟩ := exists_hostSchedule hne s
  obtain ⟨u, out, htransform, hbytes, _⟩ := exists_hostTransform (data.drop skip) hvalid hmatch
  refine ⟨u, out, hostEncrypt_of_hostTransform (Nat.zero_le _) hschedule htransform, ?_,
    hostEncrypt_of_hostTransform hskip hschedule htransform⟩
  rw [length_eq_of_docTransform hbytes, List.length_drop]

/-- Settles O31: DUMP_S reads every index once, and a permutation holds every value at one index. -/
theorem dumpShowsPermutation : Obligations.DumpShowsPermutation := by
  intro s hvalid hPerm
  obtain ⟨t, hrun⟩ := exists_runWords_readS dumpIndices hvalid
  rw [← dumpS_words_eq] at hrun
  refine ⟨t, _, hrun, (List.length_map _).trans length_dumpIndices, fun v => ?_⟩
  rw [List.map_map]
  simpa [Function.comp_def] using count_dumpIndices_map hPerm v

end Sys2Proof.Machine
end

section
/-! SUPPORT. The steps against a sequence of command words (20_memory.md R52, R58). -/

namespace Sys2Proof.Machine

/-- A sequence of command words is answered word by word; its responses are appended to those delivered, an idle block
is idle after it, and the host's coming inputs stay. -/
theorem exists_runWords (ws : List Word) (s : State) : ∃ t rs, runWords ws s = some (t, rs) ∧ rs.length = ws.length ∧
    t.delivered = s.delivered ++ rs ∧ t.inputs = s.inputs ∧ (s.channel = .idle → t.channel = .idle) := by
  induction ws generalizing s with
  | nil => exact ⟨s, [], rfl, rfl, (List.append_nil _).symm, rfl, id⟩
  | cons w ws ih =>
    obtain ⟨t, rs, hrun, hlen, hdelivered, hinputs, hidle⟩ := ih (deliver (wordResponse w s) (wordEffect w s))
    refine ⟨t, _, runWords_cons_of_some (transact_eq w s) hrun, congrArg (· + 1) hlen, ?_,
      hinputs.trans (wordEffect_inputs w s), fun _ => hidle rfl⟩
    rw [hdelivered, deliver_delivered, wordEffect_delivered, List.append_assoc, List.singleton_append]

/-- For an idle block, to replace the host's inputs is to replace them and keep the rest. -/
theorem withHost_of_idle {s : State} (h : s.channel = .idle) (l : List HostInput) :
    s.withHost .idle l s.delivered = { s with inputs := l } := by
  rw [State.withHost, ← h]

/-- A command in flight is answered in the coming step, whatever the host presents meanwhile (R52). -/
theorem step_inFlight_withHost {l : List HostInput} (hreset : (l.headD .quiet).reset = false) (w : Word)
    (d : List Word) (s : State) : step (s.withHost (.inFlight w) l d) =
      .next ((wordEffect w s).withHost (.responding (wordResponse w s)) l.tail d) := by
  have hpop : (s.withHost (.inFlight w) l d).popInput = s.withHost (.inFlight w) l.tail d := rfl
  rw [step_of_inFlight_eq (s := s.withHost (.inFlight w) l d) hreset rfl, hpop, wordEffect_withHost,
    wordResponse_withHost]
  rfl

/-- The inputs of a host that presents `w` to an idle block, waits for the answer and takes it. -/
def handshake (w : Word) : List HostInput := [HostInput.present w, HostInput.quiet, HostInput.taking]

/-- Under that host a block carries out `w` in three steps. -/
theorem run_handshake (n : Nat) (w : Word) (l : List HostInput) (d : List Word) (s : State) :
    core.run (n + 3) (s.withHost .idle (handshake w ++ l) d) =
      core.run n ((wordEffect w s).withHost .idle l (d ++ [wordResponse w s])) := by
  have haccept : step (s.withHost .idle (handshake w ++ l) d) =
      .next (s.withHost (.inFlight w) (.quiet :: .taking :: l) d) := step_of_idle_command rfl rfl rfl
  have hanswer : step (s.withHost (.inFlight w) (.quiet :: .taking :: l) d) =
      .next ((wordEffect w s).withHost (.responding (wordResponse w s)) (.taking :: l) d) :=
    step_inFlight_withHost rfl w d s
  have htake : step ((wordEffect w s).withHost (.responding (wordResponse w s)) (.taking :: l) d) =
      .next ((wordEffect w s).withHost .idle l (d ++ [wordResponse w s])) := step_of_responding_taken rfl rfl rfl
  rw [run_succ haccept, run_succ hanswer, run_succ htake]

/-- Under that host, word after word, an idle block reaches what the words lead to one after the other (R58). -/
theorem run_handshakes {ws rs : List Word} {s t : State} (hrun : runWords ws s = some (t, rs)) :
    core.run (3 * ws.length) (s.withHost .idle (ws.flatMap handshake) s.delivered) =
      .next (t.withHost .idle [] t.delivered) := by
  induction ws generalizing s rs with
  | nil =>
    obtain ⟨rfl, rfl⟩ := Prod.mk.inj (Option.some.inj hrun)
    rfl
  | cons w ws ih =>
    obtain ⟨u, us, hrest, _⟩ := exists_runWords ws (deliver (wordResponse w s) (wordEffect w s))
    obtain ⟨rfl, _⟩ :=
      Prod.mk.inj (Option.some.inj ((runWords_cons_of_some (transact_eq w s) hrest).symm.trans hrun))
    have hnext := ih hrest
    rw [deliver_delivered, wordEffect_delivered] at hnext
    rw [List.length_cons, List.flatMap_cons, Nat.mul_succ, run_handshake]
    exact hnext

/-- What holds of a state and is kept by every step holds after every run. -/
theorem exists_run_of_step_closed {P : State → Prop} (hstep : ∀ s t, P s → step s = .next t → P t) (n : Nat)
    {s : State} (h : P s) : ∃ t, core.run n s = .next t ∧ P t := by
  induction n generalizing s with
  | zero => exact ⟨s, rfl, h⟩
  | succ n ih =>
    obtain ⟨u, hu⟩ := exists_step s
    obtain ⟨t, ht, hP⟩ := ih (hstep s u h hu)
    exact ⟨t, (run_succ hu n).trans ht, hP⟩

/-- The command words a list of host inputs presents, in order. -/
def presented (l : List HostInput) : List Word := l.filterMap HostInput.command

theorem presented_tail_sublist (l : List HostInput) : (presented l.tail).Sublist (presented l) :=
  (List.tail_sublist l).filterMap _

theorem presented_of_head {l : List HostInput} {w : Word} (h : (l.headD .quiet).command = some w) :
    presented l = w :: presented l.tail := by
  cases l with
  | nil => cases h
  | cons inp l => exact List.filterMap_cons_some h

theorem headD_reset {l : List HostInput} (h : ∀ inp ∈ l, inp.reset = false) : (l.headD .quiet).reset = false := by
  cases l with
  | nil => rfl
  | cons inp l => exact h inp List.mem_cons_self

/-- The block `t` between the commands done, which lead to `u`, and those to come: idle, or with the words `ws` (one
at most) in flight, or with the last response of `u` still pending. -/
inductive Phase (u : State) : List Word → State → Prop
  | idle (l : List HostInput) : Phase u [] (u.withHost .idle l u.delivered)
  | inFlight (w : Word) (l : List HostInput) : Phase u [w] (u.withHost (.inFlight w) l u.delivered)
  | responding (t : State) (r : Word) (hc : t.channel = .responding r)
      (ht : deliver r t = u.withHost .idle t.inputs u.delivered) : Phase u [] t

/-- What the block has done since `s` to be in `t`: words `ws`, carried out one after the other, and the words `ws'` in
flight, all taken in order from those presented up to now; no reset is to come. -/
def CarriedOut (s t : State) : Prop :=
  ∃ ws ws' u rs, runWords ws s = some (u, rs) ∧ Phase u ws' t ∧
    (ws ++ ws' ++ presented t.inputs).Sublist (presented s.inputs) ∧ ∀ inp ∈ t.inputs, inp.reset = false

theorem carriedOut_self {s : State} (hidle : s.channel = .idle) (hreset : ∀ inp ∈ s.inputs, inp.reset = false) :
    CarriedOut s s := by
  have hself : s.withHost .idle s.inputs s.delivered = s := withHost_of_idle hidle s.inputs
  exact ⟨[], [], s, [], rfl, hself ▸ .idle s.inputs, List.Sublist.refl _, hreset⟩

/-- Each step is part of carrying the presented words out in order. -/
theorem CarriedOut.step {s t t' : State} (h : CarriedOut s t) (hstep : step t = .next t') : CarriedOut s t' := by
  obtain ⟨ws, ws', u, rs, hrun, hphase, hsub, hresets⟩ := h
  have hreset : t.input.reset = false := headD_reset hresets
  have hresets' : ∀ inp ∈ t.inputs.tail, inp.reset = false := fun inp hmem => hresets inp (List.mem_of_mem_tail hmem)
  have hskip : (ws ++ ws' ++ presented t.inputs.tail).Sublist (presented s.inputs) :=
    ((presented_tail_sublist t.inputs).append_left _).trans hsub
  cases hphase with
  | idle l =>
    cases hcommand : (l.headD .quiet).command with
    | none =>
      obtain rfl := Host.Outcome.next.inj ((step_of_idle_quiet hreset rfl hcommand).symm.trans hstep)
      exact ⟨ws, [], u, rs, hrun, .idle l.tail, hskip, hresets'⟩
    | some w =>
      obtain rfl := Host.Outcome.next.inj ((step_of_idle_command hreset rfl hcommand).symm.trans hstep)
      refine ⟨ws, [w], u, rs, hrun, .inFlight w l.tail, ?_, hresets'⟩
      have hpresented : presented (u.withHost .idle l u.delivered).inputs = [w] ++ presented l.tail :=
        presented_of_head hcommand
      rw [hpresented, List.append_nil, ← List.append_assoc] at hsub
      exact hsub
  | inFlight w l =>
    obtain rfl := Host.Outcome.next.inj ((step_inFlight_withHost hreset w u.delivered u).symm.trans hstep)
    have hrun' := runWords_append_of_some hrun (runWords_cons_of_some (transact_eq w u) (runWords_nil _))
    refine ⟨ws ++ [w], [], _, _, hrun', .responding _ _ rfl ?_, ?_, hresets'⟩
    · rw [deliver_delivered, wordEffect_delivered]
      rfl
    · rw [List.append_nil]
      exact hskip
  | responding _ r hc ht =>
    cases htake : t.input.take with
    | false =>
      obtain rfl := Host.Outcome.next.inj ((step_of_responding_held hreset hc htake).symm.trans hstep)
      exact ⟨ws, [], u, rs, hrun, .responding _ r hc (congrArg State.popInput ht), hskip, hresets'⟩
    | true =>
      obtain rfl := Host.Outcome.next.inj ((step_of_responding_taken hreset hc htake).symm.trans hstep)
      have hidle : deliver r t.popInput = u.withHost .idle t.inputs.tail u.delivered := congrArg State.popInput ht
      exact ⟨ws, [], u, rs, hrun, hidle ▸ .idle t.inputs.tail, hskip, hresets'⟩

end Sys2Proof.Machine
end

section
/-! The statements about the steps as a refinement of command sequences (20_memory.md section 6). -/

namespace Sys2Proof.Machine

/-- Settles O47: word after word the three steps do what the transaction does. -/
theorem stepsRefineCommandSequence : Obligations.StepsRefineCommandSequence := by
  intro ws s hidle hinputs
  obtain ⟨t, rs, hrun, hlen, hdelivered, hkept, hidle'⟩ := exists_runWords ws s
  refine ⟨t, rs, hrun, hlen, hdelivered, ?_⟩
  have hsteps := run_handshakes hrun
  have hend : t.withHost .idle [] t.delivered = t := by
    rw [← hinputs, ← hkept]
    exact withHost_of_idle (hidle' hidle) _
  rw [withHost_of_idle hidle, hend] at hsteps
  exact hsteps

/-- Settles O48: by the invariant that each step is part of carrying the presented words out in order. -/
theorem anyHostDrivesCommandsInOrder : Obligations.AnyHostDrivesCommandsInOrder := by
  intro n s hidle hreset
  obtain ⟨t, ht, ws, ws', u, rs, hrun, hphase, hsub, _⟩ :=
    exists_run_of_step_closed (P := CarriedOut s) (fun _ _ h => h.step) n (carriedOut_self hidle hreset)
  obtain ⟨u', rs', hrun', _, hdelivered, _, hidle'⟩ := exists_runWords ws s
  obtain ⟨rfl, rfl⟩ := Prod.mk.inj (Option.some.inj (hrun'.symm.trans hrun))
  have hsub' := (List.sublist_append_left _ _).trans hsub
  refine ⟨t, ws, u', rs', ht, (List.sublist_append_left _ _).trans hsub', hrun, hdelivered, ?_⟩
  cases hphase with
  | idle l => exact .inl ⟨rfl, withHost_of_idle (hidle' hidle) l⟩
  | inFlight w l => exact .inr (.inl ⟨w, rfl, rfl, hsub'⟩)
  | responding _ r hc hdone => exact .inr (.inr ⟨r, hc, hdone.trans (withHost_of_idle (hidle' hidle) _)⟩)

end Sys2Proof.Machine
end
